-- ==== Sys2Proof/Config.lean ====
section
/-! DEFINITION. What is fixed when the block is built: the parameters of 00_scope.md R6 and R8 and of
93_implementation_defined.md I3, the fixed constants of R9, the open parameters of R10, and the free values. -/

namespace Sys2Proof

/-- GAP_FORM (93_implementation_defined.md I3): where a completed code is pushed. -/
inductive GapForm where
  /-- The spec's rules: on the expiry tick of CHAR_GAP (41_timing_fsm.md R108, R118). The default. -/
  | separated
  /-- The alternative of I3: on the next released IDLE tick, by the third branch of R104. -/
  | combined
  deriving DecidableEq, Repr

/-- The build-time parameters a model takes as arguments (00_scope.md R6, R8; 93_implementation_defined.md I3).
Which values are admitted is `Config.legal` (Machine/Parameters.lean). -/
structure Config where
  /-- `W_CD`, the width of `cd`. -/
  wCd : Nat
  /-- `W_PC`, the width of `acc`, of each ring slot and of the LUT index. -/
  wPc : Nat
  /-- `W_CUR`, the width of the cursors. -/
  wCur : Nat
  /-- `W_CH`, the width of a character. -/
  wCh : Nat
  /-- `T_SHORT`: a pulse is a dot if released before it expires. -/
  tShort : Nat
  /-- `T_LONG`: the inter-symbol gap. -/
  tLong : Nat
  /-- `T_DASH_REARM`: the countdown of a held dash. -/
  tDashRearm : Nat
  /-- `T_CHAR_GAP`: the character gap. -/
  tCharGap : Nat
  /-- `T_GRACE`: the grace period in IDLE after a push. -/
  tGrace : Nat
  /-- `GAP_FORM`. -/
  gapForm : GapForm
  deriving DecidableEq, Repr

/-- The defaults of R6, R8 and I3. -/
def Config.default : Config where
  wCd := 8
  wPc := 8
  wCur := 8
  wCh := 8
  tShort := 128
  tLong := 255
  tDashRearm := 240
  tCharGap := 128
  tGrace := 64
  gapForm := .separated

/-- `SENTINEL = 1` (00_scope.md R9). -/
abbrev Config.sentinel : Nat := 1

/-- `UNKNOWN_CHAR = '*'` (00_scope.md R9) in ASCII (30_encoding.md R74; PRESUMED, log 17). -/
abbrev Config.unknownChar : Nat := 0x2A

/-- The free value a RESET leaves in a ring slot: the RESET's number, then the slot (70_reset_and_hazards.md R220,
"any value"; log 7).  Nothing constrains it. -/
opaque Config.freeSlot : Nat → Nat → Nat

/-- The free value the table holds for a character whose number does not fit `W_CH` bits: `W_CH`, then the number
(00_scope.md R8 sets no least `W_CH`, and no rule says what such an entry holds; log 30).  Nothing constrains it. -/
opaque Config.narrowChar : Nat → Nat → Nat

/-- `TICK_PERIOD`, seconds per tick: open, and no rule reads it (00_scope.md R10; log 18). -/
opaque Config.tickPeriod : Rat

/-- `DUTY_DASH`, the lower duty preset: open (00_scope.md R10; log 18). -/
opaque Config.dutyDash : Nat

/-- By how much more than one step `DUTY_DOT` exceeds `DUTY_DASH`: open (log 18). -/
opaque Config.dutyExcess : Nat

/-- `DUTY_DOT`, which is the higher one of the two presets (00_scope.md R10, 92_eei_decisions.md D25). -/
def Config.dutyDot : Nat := Config.dutyDash + 1 + Config.dutyExcess

/-- `DISPLAY_INIT_OPTIONS`, the argument of the display's `init`: open (00_scope.md R10; log 18). -/
opaque Config.displayInitOptions : List Nat

end Sys2Proof
end

