-- ==== Sys2Proof/Word.lean ====
section
/-! DEFINITION. The command word, the response word, and wrapping arithmetic. -/

namespace Sys2Proof

/-- A command word or a response word: 16 bits, bit 0 least significant (30_encoding.md R70, 00_scope.md R11). -/
abbrev Word := BitVec 16

/-- `W`-bit arithmetic wraps (00_scope.md R11): the value modulo `2^W`.  The widths are parameters (R8), so a
register is a natural number below `2^W`, and every operation that could leave that range goes through here. -/
abbrev wrap (width value : Nat) : Nat := value % 2 ^ width

/-- `zext_16(v)` (00_scope.md R11): the value in a 16-bit word, zeros above. -/
abbrev zext16 (value : Nat) : Word := BitVec.ofNat 16 value

end Sys2Proof
end

