-- ==== Sys2Proof/Syntax.lean ====
section
/-! DEFINITION. The five operations that have a command word (30_encoding.md R86), and the decoder's reasons. -/

namespace Sys2Proof

/-- One constructor per row of spec/opcode_table.json.  PUSH has no command word (30_encoding.md R86). -/
inductive Instr where
  /-- `TICK key_n`: the operand is the raw pin level, 0 = pressed (30_encoding.md R75, R82). -/
  | tick (keyN : BitVec 1)
  /-- `POP` (R76). -/
  | pop
  /-- `RDWC`, read the write cursor (R77). -/
  | rdwc
  /-- `DECODE code` (R78): the operand field has 12 bits, of which the low `W_PC` are the code (R82). -/
  | decode (code : BitVec 12)
  /-- `RESET`, the power-cycle (R79). -/
  | reset
  deriving DecidableEq, Repr

/-- Why a word is no command (30_encoding.md R80). -/
inductive Reject where
  /-- The operation field is `0b0000` or in `0b0101 .. 0b1110`. -/
  | reservedOp (op : BitVec 4)
  /-- A reserved operand bit of a known operation is not 0. -/
  | reservedBits (op : BitVec 4)
  deriving DecidableEq, Repr

/-- The agents that issue operations (00_scope.md R4). -/
inductive Agent where
  | tickSource
  | consumer
  | resetSource
  deriving DecidableEq, Repr

end Sys2Proof
end

