-- ==== Sys2Proof/WellFormed.lean ====
section
/-! DEFINITION. Which terms of `Instr` stand for a command word (30_encoding.md R70, R82). -/

namespace Sys2Proof

/-- The one check: DECODE's code is a `W_PC`-bit value, so `w[11:W_PC] = 0` in its word (30_encoding.md R70, R78). -/
def Instr.wellFormed (wPc : Nat) : Instr → Bool
  | .tick _ => true
  | .pop => true
  | .rdwc => true
  | .decode code => decide (code.toNat < 2 ^ wPc)
  | .reset => true

end Sys2Proof
end

