-- ==== Sys2Proof/Decode.lean ====
section
/-! DEFINITION. The decoder, total on every 16-bit word (30_encoding.md R81), the encoder from the same layouts (R70),
and the data encodings of R72 to R74 live beside their types in Machine/Operands.lean. -/

namespace Sys2Proof

/-- `w[15:12]`, the operation field (30_encoding.md R70). -/
def opField (w : Word) : BitVec 4 := w.extractLsb' 12 4

/-- `w[11:0]`, the operand field (30_encoding.md R70). -/
def operandField (w : Word) : BitVec 12 := w.extractLsb' 0 12

/-- `decode_word` of 30_encoding.md R81, for a block whose codes have `wPc` bits.  A word outside R80's legal ones is
rejected by name. -/
def decodeWord (wPc : Nat) (w : Word) : Except Reject Instr :=
  let op := opField w
  let x := operandField w
  if op = 0b0001#4 then
    if x.extractLsb' 1 11 = 0#11 then .ok (.tick (x.extractLsb' 0 1)) else .error (.reservedBits op)
  else if op = 0b0010#4 then
    if x = 0#12 then .ok .pop else .error (.reservedBits op)
  else if op = 0b0011#4 then
    if x = 0#12 then .ok .rdwc else .error (.reservedBits op)
  else if op = 0b0100#4 then
    if x.toNat < 2 ^ wPc then .ok (.decode x) else .error (.reservedBits op)
  else if op = 0b1111#4 then
    if x = 0#12 then .ok .reset else .error (.reservedBits op)
  else .error (.reservedOp op)

/-- The command word of an instruction (30_encoding.md R70, R75 to R79). -/
def encode : Instr → Word
  | .tick keyN => 0b0001#4 ++ (0#11 ++ keyN)
  | .pop => 0b0010#4 ++ 0#12
  | .rdwc => 0b0011#4 ++ 0#12
  | .decode code => 0b0100#4 ++ code
  | .reset => 0b1111#4 ++ 0#12

/-- The word of an opcode-table row: `nbits` bits, zeros above (log 25). -/
def tableWord (nbits w : Nat) : Word := BitVec.ofNat 16 (w % 2 ^ nbits)

/-- What the decoder reads from an instruction of `nbits` bits `w`, with the default widths.  Every command is exactly
one 16-bit word (30_encoding.md R83), so a longer instruction is none. -/
def decodeTableWord (nbits w : Nat) : Option Instr :=
  if nbits ≤ 16 then (decodeWord Config.default.wPc (tableWord nbits w)).toOption else none

end Sys2Proof
end

