-- ==== Sys2Proof/Machine/State.lean ====
section
/-! DEFINITION. Everything the spec gives the block, as plain data, and the state right after reset. -/

namespace Sys2Proof.Machine

/-- TimingState (10_state.md R22).  The values 5 to 7 of its 3-bit encoding are left out of the type
(30_encoding.md R72). -/
inductive TimingState where
  | idle
  | dotOrDash
  | dashExt
  | symbolGap
  | charGap
  deriving DecidableEq, Repr

/-- `tone_lvl` (10_state.md R26): which duty preset the tone has. -/
inductive ToneLevel where
  | dot
  | dash
  deriving DecidableEq, Repr

/-- What the tone port carries: `(tone_en, tone_lvl)` (41_timing_fsm.md R109). -/
structure TonePort where
  en : Bool
  lvl : ToneLevel
  deriving DecidableEq, Repr

/-- A call made to the display (44_host_consumer.md R170). -/
inductive DisplayEvent where
  | init (options : List Nat)
  | clear
  | moveCursor (x y : Nat)
  | writeChar (c : Nat)
  deriving DecidableEq, Repr

/-- Where the one consumer stands in the iteration of 44_host_consumer.md R171: the operation it issues next, by its loop
or as a word of a stimulus program that writes its steps out (30_encoding.md R85).  It is the host's, so this is the
model's own state (10_state.md R21; log 10, log 27). -/
inductive ConsumerPos where
  /-- The iteration's top: POP is next. -/
  | atPop
  /-- It has popped `code`; RDWC is next. -/
  | atRdwc (code : Nat)
  /-- It has made its screen-clear test; DECODE of `code` is next. -/
  | atDecode (code : Nat)
  deriving DecidableEq, Repr

/-- One item of the total order of operations (20_memory.md R60; log 1). -/
inductive Move where
  /-- An agent issues the command word `w`. -/
  | word (w : Word)
  /-- The host calls the display's `INIT` (70_reset_and_hazards.md R222, step 2). -/
  | displayInit
  /-- The host starts the consumer loop at its top (R222, step 4). -/
  | consumerStart
  /-- The running consumer loop takes its next operation (44_host_consumer.md R171). -/
  | consumerTurn
  deriving DecidableEq, Repr

/-- The state of the block, of its host interface, and of the model's run. -/
structure State where
  /-- The build-time parameters; no operation writes them (10_state.md R35). -/
  cfg : Config
  /-- 10_state.md R22. -/
  state : TimingState
  /-- `cd`, the TickCountdown, `W_CD` bits (10_state.md R23). -/
  cd : Nat
  /-- `acc`, the PulseCode accumulator, `W_PC` bits (10_state.md R24). -/
  acc : Nat
  /-- `tone_en` (10_state.md R25). -/
  toneEn : Bool
  /-- `tone_lvl` (10_state.md R26). -/
  toneLvl : ToneLevel
  /-- What the tone port carries and holds until the next TICK or RESET (41_timing_fsm.md R109). -/
  tonePort : TonePort
  /-- The write cursor, `W_CUR` bits (10_state.md R27). -/
  wr : Nat
  /-- The read cursor, `W_CUR` bits (10_state.md R28). -/
  rd : Nat
  /-- The 16 slots, `W_PC` bits each (10_state.md R29, 20_memory.md R50). -/
  ring : Vector Nat 16
  /-- The sticky mark of 10_state.md R34. -/
  refused : Bool
  /-- The response of the operation just applied, none where it gives none (30_encoding.md R70; log 15). -/
  resp : Option Word
  /-- The sequence of responses, oldest first (44_host_consumer.md R175). -/
  responses : List Word
  /-- The tone port values after each TICK, oldest first (44_host_consumer.md R175). -/
  tones : List TonePort
  /-- The display log, oldest first (44_host_consumer.md R170). -/
  display : List DisplayEvent
  /-- Where the consumer stands in its iteration (44_host_consumer.md R171; log 10, log 27). -/
  consumer : ConsumerPos
  /-- The consumer's loop runs by itself; while it does not, the consumer's steps are words of the total order
  (70_reset_and_hazards.md R222, 30_encoding.md R85; log 12). -/
  looping : Bool
  /-- The rest of the total order, next first (20_memory.md R60; log 1, log 2). -/
  pending : List Move
  /-- How many RESETs have drawn free slot values; the model's own (log 7). -/
  freeCounter : Nat
  deriving DecidableEq, Repr

/-- The block has no exception, no trap and no failure outcome (60_exceptions.md R200), and hardware faults are out of
scope (R202): no constructor. -/
inductive Fault where
  deriving DecidableEq, Repr

/-- Why the model stops. -/
inductive Refusal where
  /-- Raised by a refused arm of `exec`, for an instruction that has no meaning yet: safe.  No arm uses it. -/
  | notModelled (mnemonic : String)
  /-- Raised by `step`: the parameters break 00_scope.md R7 or R8 ("refused at configuration time"): safe (log 5). -/
  | illegalConfiguration
  /-- Raised by `step`: a POP or RDWC word while the consumer loop is running, which would be a second consumer
  (60_exceptions.md R206): safe (log 12). -/
  | secondConsumer
  /-- Raised by `step`: a turn of a consumer loop that the host has not started (70_reset_and_hazards.md R222): safe
  (log 13). -/
  | consumerNotStarted
  deriving DecidableEq, Repr

/-- Right after reset, with the default parameters (70_reset_and_hazards.md R221).  The ring slots are unspecified
there; zeros are this definition's DESIGN CHOICE (log 6), as are the values of the model's own fields (log 8). -/
def State.reset : State where
  cfg := Config.default
  state := .idle
  cd := 0
  acc := Config.sentinel
  toneEn := false
  toneLvl := .dot
  tonePort := ⟨false, .dot⟩
  wr := 0
  rd := 0
  ring := Vector.replicate 16 0
  refused := false
  resp := none
  responses := []
  tones := []
  display := []
  consumer := .atPop
  looping := false
  pending := []
  freeCounter := 0

end Sys2Proof.Machine
end

