-- ==== Sys2Proof/Machine/Flags.lean ====
section
/-! DEFINITION. The block has no flags; the two predicates derived from the cursors (10_state.md R31). -/

namespace Sys2Proof.Machine

/-- `empty := (rd == wr)`, a compare of the whole cursors (10_state.md R31, 43_ring_buffer.md R151). -/
def ringEmpty (s : State) : Bool := s.rd == s.wr

/-- `occupancy := (wr - rd) mod 2^W_CUR` (10_state.md R31). It exceeds 16 when the consumer lags. -/
def occupancy (s : State) : Nat := ((s.wr : Int) - (s.rd : Int)).emod (2 ^ s.cfg.wCur) |>.toNat

end Sys2Proof.Machine
end

