-- ==== Sys2Proof/Machine/PulseCode.lean ====
section
/-! DEFINITION. The PulseCode encoding (30_encoding.md R71) and the accumulator's append operations
(41_timing_fsm.md R102). A pulse is a Bool: false a dot, true a dash. -/

namespace Sys2Proof.Machine

/-- `DOT_APPEND(a) = (a << 1) mod 2^W_PC` (41_timing_fsm.md R102). -/
def dotAppend (wPc a : Nat) : Nat := wrap wPc (a <<< 1)

/-- `DASH_APPEND(a) = ((a << 1) + 1) mod 2^W_PC` (41_timing_fsm.md R102). -/
def dashAppend (wPc a : Nat) : Nat := wrap wPc ((a <<< 1) + 1)

/-- The code of the pulses `p_1 ... p_n`: the sentinel 1, then the pulses, the first one highest
(30_encoding.md R71), with no bound on the length. -/
def pulseCode (pulses : List Bool) : Nat := pulses.foldl (fun code p => 2 * code + p.toNat) Config.sentinel

/-- The pulses of a code `c >= 1`: `n = floor(log2 c)`, `p_k = c[n-k]`; code 0 has no sentinel and encodes nothing
(30_encoding.md R71). -/
def codePulses (code : Nat) : Option (List Bool) :=
  if code = 0 then none
  else some ((List.range (Nat.log2 code)).map fun k => code.testBit (Nat.log2 code - (k + 1)))

end Sys2Proof.Machine
end

