-- ==== Sys2Proof/Machine/Ops.lean ====
section
/-! DEFINITION. The named operations the meanings share: ring access, PUSH, the countdown, the tone port, the
response, and the refusal of a word, which stands where other machines take an exception (60_exceptions.md R200,
R201: the block has no trap entry and no return, R205). -/

namespace Sys2Proof.Machine

/-- The slot a cursor addresses: `cursor mod 16` (20_memory.md R50, R57). -/
def slotOf (cursor : Nat) : Fin 16 := ⟨cursor % 16, Nat.mod_lt _ (by decide)⟩

/-- `MemRead(ring, i)` (20_memory.md R50). -/
def memRead (i : Fin 16) (s : State) : Nat := s.ring[i]

/-- `MemWrite(ring, i, v)`: `ring[i] <- v[W_PC-1:0]` (20_memory.md R50). -/
def memWrite (i : Fin 16) (v : Nat) (s : State) : State :=
  { s with ring := s.ring.set i (wrap s.cfg.wPc v) }

/-- The next value of a cursor (43_ring_buffer.md R150, R151). -/
def cursorNext (wCur cursor : Nat) : Nat := wrap wCur (cursor + 1)

/-- `PUSH(v)`: the slot, then the cursor; it never reads `rd` (43_ring_buffer.md R150, 20_memory.md R61). -/
def push (v : Nat) (s : State) : State :=
  let s := memWrite (slotOf s.wr) v s
  { s with wr := cursorNext s.cfg.wCur s.wr }

/-- `cd - 1` in `W_CD` bits (41_timing_fsm.md R101, 00_scope.md R11). From 0, which no timed state reaches
(10_state.md R36(c)), it wraps (log 24). -/
def decrement (wCd cd : Nat) : Nat := wrap wCd (cd + (2 ^ wCd - 1))

/-- `emit(tone, (tone_en, tone_lvl))`: the port carries the registers (41_timing_fsm.md R109). -/
def emitTone (s : State) : State := { s with tonePort := ⟨s.toneEn, s.toneLvl⟩ }

/-- The observation of the tone port after a TICK (44_host_consumer.md R175). -/
def logTone (s : State) : State := { s with tones := s.tones ++ [s.tonePort] }

/-- An operation answers with a response word (30_encoding.md R70). -/
def respond (w : Word) (s : State) : State := { s with resp := some w, responses := s.responses ++ [w] }

/-- An operation gives no response (30_encoding.md R70). -/
def noResponse (s : State) : State := { s with resp := none }

/-- POP's response when it finds a code: `valid` in bit 15, the code below (30_encoding.md R76). -/
def popResponse (v : Nat) : Word := 0x8000#16 ||| zext16 v

/-- A refused word: no register, slot or port changes, no response, and the sticky mark is set
(60_exceptions.md R201, 10_state.md R34). -/
def refuseWord (s : State) : State := { noResponse s with refused := true }

/-- A display call goes into the display log (44_host_consumer.md R170). -/
def displayCall (e : DisplayEvent) (s : State) : State := { s with display := s.display ++ [e] }

/-- Continue from a next state; a stop stays a stop. -/
def andThen (o : Host.Outcome State Fault Refusal) (f : State → State) : Host.Outcome State Fault Refusal :=
  match o with
  | .next s => .next (f s)
  | .fault r => .fault r
  | .refused r => .refused r

/-- Run on from a next state; a stop stays a stop. -/
def runOn (o : Host.Outcome State Fault Refusal) (f : State → Host.Outcome State Fault Refusal) :
    Host.Outcome State Fault Refusal :=
  match o with
  | .next s => f s
  | .fault r => .fault r
  | .refused r => .refused r

end Sys2Proof.Machine
end

