-- ==== Sys2Proof/Machine/Power.lean ====
section
/-! DEFINITION. RESET, the power-cycle (70_reset_and_hazards.md R220). -/

namespace Sys2Proof.Machine

/-- The slots after a power-cycle: any value of `W_PC` bits, a free value (70_reset_and_hazards.md R220; log 7). -/
def unspecifiedRing (wPc counter : Nat) : Vector Nat 16 :=
  Vector.ofFn fun i : Fin 16 => wrap wPc (Config.freeSlot counter i)

/-- `RESET()`: every register but the slots has the value of 70_reset_and_hazards.md R221; the parameters, the table and
the `refused` mark stay (R220, 10_state.md R34), and so do the logs and the consumer's place (log 11, log 15). -/
def execReset (s : State) : Host.Outcome State Fault Refusal :=
  .next (noResponse (emitTone
    { s with
      state := .idle
      wr := 0
      rd := 0
      cd := 0
      acc := Config.sentinel
      toneEn := false
      toneLvl := .dot
      ring := unspecifiedRing s.cfg.wPc s.freeCounter
      freeCounter := s.freeCounter + 1 }))

end Sys2Proof.Machine
end

