-- ==== Sys2Proof/Machine/Ring.lean ====
section
/-! DEFINITION. The consumer side of the Pulse Ring Buffer: POP and RDWC (43_ring_buffer.md R151, R155). -/

namespace Sys2Proof.Machine

/-- `POP()`: nothing when the cursors are equal, else the slot at `rd mod 16`, and `rd` advances; the slot is not
cleared (43_ring_buffer.md R151). -/
def execPop (s : State) : Host.Outcome State Fault Refusal :=
  if ringEmpty s then .next (respond 0x0000#16 s)
  else
    let v := memRead (slotOf s.rd) s
    .next (respond (popResponse v) { s with rd := cursorNext s.cfg.wCur s.rd })

/-- `RDWC()`: the write cursor, zero-extended (43_ring_buffer.md R155). DEDUCED (log 29): of a cursor of more than 16 bits
the response holds bits 15 to 0, each in its place of 30_encoding.md R70. -/
def execRdwc (s : State) : Host.Outcome State Fault Refusal := .next (respond (zext16 s.wr) s)

end Sys2Proof.Machine
end

