-- ==== Sys2Proof/Machine/Lut.lean ====
section
/-! DEFINITION. The constant Symbol Decode Table (42_decode_lut.md R141, R142; 10_state.md R30). -/

namespace Sys2Proof.Machine

/-- The letters of 42_decode_lut.md R141: code and ASCII value. -/
def lutLetters : List (Nat × Nat) :=
  [(0x05, 0x41), (0x18, 0x42), (0x1A, 0x43), (0x0C, 0x44), (0x02, 0x45), (0x12, 0x46), (0x0E, 0x47),
   (0x10, 0x48), (0x04, 0x49), (0x17, 0x4A), (0x0D, 0x4B), (0x14, 0x4C), (0x07, 0x4D)] ++
  [(0x06, 0x4E), (0x0F, 0x4F), (0x16, 0x50), (0x1D, 0x51), (0x0A, 0x52), (0x08, 0x53), (0x03, 0x54),
   (0x09, 0x55), (0x11, 0x56), (0x0B, 0x57), (0x19, 0x58), (0x1B, 0x59), (0x1C, 0x5A)]

/-- The digits of 42_decode_lut.md R141: code and ASCII value. -/
def lutDigits : List (Nat × Nat) :=
  [(0x2F, 0x31), (0x27, 0x32), (0x23, 0x33), (0x21, 0x34), (0x20, 0x35), (0x30, 0x36), (0x38, 0x37),
   (0x3C, 0x38), (0x3E, 0x39), (0x3F, 0x30)]

/-- The table as 42_decode_lut.md R141 and R142 write it: the row's character, or `'*'` for every code with no entry. -/
def tableChar (code : Nat) : Nat := ((lutLetters ++ lutDigits).lookup code).getD Config.unknownChar

/-- A character in an entry of `W_CH` bits (10_state.md R30): its number, or, where that does not fit, a free value of
`W_CH` bits (DESIGN CHOICE, log 30). -/
def fitChar (wCh ch : Nat) : Nat := if ch < 2 ^ wCh then ch else wrap wCh (Config.narrowChar wCh ch)

/-- `LutRead(c)`: the `W_CH`-bit entry of the code (20_memory.md R51, 42_decode_lut.md R140 to R142).
DESIGN CHOICE (log 26): a symbol of `W_PC` or more pulses has wrapped (41_timing_fsm.md R102), and its code may be that of a
row; 42_decode_lut.md R144 and 93_implementation_defined.md I2 would have every such code read `'*'`, while the look-up sees
the code alone and answers the row's character. -/
def lutRead (wCh code : Nat) : Nat := fitChar wCh (tableChar code)

end Sys2Proof.Machine
end

