-- ==== Sys2Proof/Machine/Operands.lean ====
section
/-! DEFINITION. The operand forms (30_encoding.md R82) and the numeric data encodings (R72, R73). -/

namespace Sys2Proof.Machine

/-- `pressed := (key_n == 0)`: the key input is active-low (00_scope.md R14). -/
def pressed (keyN : BitVec 1) : Bool := keyN == 0#1

/-- The code operand of DECODE: an unsigned field taken as-is (30_encoding.md R82). -/
def codeOperand (code : BitVec 12) : Nat := code.toNat

/-- TimingState in 3 bits (30_encoding.md R72). -/
def TimingState.toBits : TimingState → BitVec 3
  | .idle => 0b000#3
  | .dotOrDash => 0b001#3
  | .dashExt => 0b010#3
  | .symbolGap => 0b011#3
  | .charGap => 0b100#3

/-- The state a 3-bit value stands for; 5 to 7 stand for none (30_encoding.md R72). -/
def TimingState.ofBits (b : BitVec 3) : Option TimingState :=
  if b = 0b000#3 then some .idle
  else if b = 0b001#3 then some .dotOrDash
  else if b = 0b010#3 then some .dashExt
  else if b = 0b011#3 then some .symbolGap
  else if b = 0b100#3 then some .charGap
  else none

/-- `tone_lvl`: 0 is DOT, 1 is DASH (30_encoding.md R73). -/
def ToneLevel.toBit : ToneLevel → BitVec 1
  | .dot => 0#1
  | .dash => 1#1

/-- The two tone port bits, `tone_en` then `tone_lvl` (30_encoding.md R73). -/
def TonePort.toBits (p : TonePort) : BitVec 1 × BitVec 1 := (BitVec.ofBool p.en, p.lvl.toBit)

/-- The duty preset a tone level selects (30_encoding.md R73, 10_state.md R26). -/
def ToneLevel.duty : ToneLevel → Nat
  | .dot => Config.dutyDot
  | .dash => Config.dutyDash

/-- What the host oscillator sounds: a preset while `tone_en = 1`, nothing while `tone_en = 0`
(41_timing_fsm.md R109). -/
def TonePort.sounding (p : TonePort) : Option Nat := if p.en then some p.lvl.duty else none

end Sys2Proof.Machine
end

