-- ==== Sys2Proof/Machine/Table.lean ====
section
/-! DEFINITION. DECODE, the look-up in the Symbol Decode Table (42_decode_lut.md R140). -/

namespace Sys2Proof.Machine

/-- `DECODE(code)`: the table's character, zero-extended; it reads no register and writes none
(42_decode_lut.md R140). -/
def execDecode (code : BitVec 12) (s : State) : Host.Outcome State Fault Refusal :=
  .next (respond (zext16 (lutRead s.cfg.wCh (codeOperand code))) s)

end Sys2Proof.Machine
end

