-- ==== Sys2Proof/Machine/Tick.lean ====
section
/-! DEFINITION. The Timing State Machine: TICK (41_timing_fsm.md R100 to R109). -/

namespace Sys2Proof.Machine

/-- `START_PULSE(new_char)`, the common entry to DOT_OR_DASH (41_timing_fsm.md R103). -/
def startPulse (newChar : Bool) (s : State) : State :=
  { s with
    toneEn := true
    toneLvl := .dot
    cd := s.cfg.tShort
    acc := if newChar then Config.sentinel else s.acc
    state := .dotOrDash }

/-- TICK in IDLE (41_timing_fsm.md R104). The third branch is the source's pending character, which the separated form
never reaches and the combined form does (93_implementation_defined.md I3). -/
def tickIdle (press : Bool) (s : State) : State :=
  if press then startPulse true s
  else if s.cd ≠ 0 then { s with cd := decrement s.cfg.wCd s.cd }
  else if s.acc ≠ Config.sentinel then { push s.acc s with acc := Config.sentinel, cd := s.cfg.tGrace }
  else s

/-- TICK in DOT_OR_DASH: a release is a dot, an expiry a dash (41_timing_fsm.md R105). -/
def tickDotOrDash (press : Bool) (s : State) : State :=
  if press then
    let cd := decrement s.cfg.wCd s.cd
    if cd = 0 then
      { s with acc := dashAppend s.cfg.wPc s.acc, toneLvl := .dash, cd := s.cfg.tDashRearm, state := .dashExt }
    else { s with cd := cd }
  else
    { s with acc := dotAppend s.cfg.wPc s.acc, toneEn := false, cd := s.cfg.tLong, state := .symbolGap }

/-- TICK in DASH_EXT: held, it re-arms (41_timing_fsm.md R106). -/
def tickDashExt (press : Bool) (s : State) : State :=
  if press then
    let cd := decrement s.cfg.wCd s.cd
    if cd = 0 then { s with cd := s.cfg.tDashRearm } else { s with cd := cd }
  else { s with toneEn := false, cd := s.cfg.tLong, state := .symbolGap }

/-- TICK in SYMBOL_GAP: a press continues the symbol, an expiry completes it (41_timing_fsm.md R107). -/
def tickSymbolGap (press : Bool) (s : State) : State :=
  if press then startPulse false s
  else
    let cd := decrement s.cfg.wCd s.cd
    if cd = 0 then { s with cd := s.cfg.tCharGap, state := .charGap } else { s with cd := cd }

/-- The expiry of CHAR_GAP: the push of 41_timing_fsm.md R108, or, in the combined form, only the entry to IDLE
(93_implementation_defined.md I3). -/
def charGapExpiry (s : State) : State :=
  match s.cfg.gapForm with
  | .separated => { push s.acc s with acc := Config.sentinel, cd := s.cfg.tGrace, state := .idle }
  | .combined => { s with cd := 0, state := .idle }

/-- TICK in CHAR_GAP: a press discards the completed code, an expiry ends the character (41_timing_fsm.md R108). -/
def tickCharGap (press : Bool) (s : State) : State :=
  if press then startPulse true s
  else
    let cd := decrement s.cfg.wCd s.cd
    if cd = 0 then charGapExpiry s else { s with cd := cd }

/-- The dispatch of 41_timing_fsm.md R100. -/
def tickTransition (press : Bool) (s : State) : State :=
  match s.state with
  | .idle => tickIdle press s
  | .dotOrDash => tickDotOrDash press s
  | .dashExt => tickDashExt press s
  | .symbolGap => tickSymbolGap press s
  | .charGap => tickCharGap press s

/-- `TICK(key_n)`: the transition, then the tone port (41_timing_fsm.md R100, R109). -/
def execTick (keyN : BitVec 1) (s : State) : Host.Outcome State Fault Refusal :=
  .next (noResponse (logTone (emitTone (tickTransition (pressed keyN) s))))

end Sys2Proof.Machine
end

