-- ==== Sys2Proof/Machine/Dispatch.lean ====
section
/-! DEFINITION. One arm per operation. -/

namespace Sys2Proof.Machine

def exec (i : Instr) (s : State) : Host.Outcome State Fault Refusal :=
  match i with
  | .tick keyN => Sys2Proof.Machine.execTick keyN s
  | .pop => Sys2Proof.Machine.execPop s
  | .rdwc => Sys2Proof.Machine.execRdwc s
  | .decode code => Sys2Proof.Machine.execDecode code s
  | .reset => Sys2Proof.Machine.execReset s

end Sys2Proof.Machine
end

