-- ==== Sys2Proof/Machine/Consumer.lean ====
section
/-! DEFINITION. The Rendering Consumer (44_host_consumer.md R171), one operation a step, with the display calls that follow
it. It sees the block only through the response words. -/

namespace Sys2Proof.Machine

/-- The `valid` bit of POP's response (30_encoding.md R76). -/
def respValid (w : Word) : Bool := w.getLsbD 15

/-- The low `width` bits of a response word (30_encoding.md R70). -/
def respField (width : Nat) (w : Word) : Nat := wrap width w.toNat

/-- After POP: on `SOME(code)` go on to RDWC, on NONE start the next iteration (44_host_consumer.md R171). -/
def afterPop (s : State) : State :=
  match s.resp with
  | some w => { s with consumer := if respValid w then .atRdwc (respField s.cfg.wPc w) else .atPop }
  | none => { s with consumer := .atPop }

/-- After RDWC: when the low 4 bits of the write cursor are 0, CLEAR and MOVE_CURSOR(0, 0)
(44_host_consumer.md R171). -/
def afterRdwc (code : Nat) (s : State) : State :=
  match s.resp with
  | some w =>
    let s := if respField 4 w = 0 then displayCall (.moveCursor 0 0) (displayCall .clear s) else s
    { s with consumer := .atDecode code }
  | none => { s with consumer := .atDecode code }

/-- After DECODE: WRITE_CHAR(ch), and the next iteration (44_host_consumer.md R171). -/
def afterDecode (s : State) : State :=
  match s.resp with
  | some w => { displayCall (.writeChar (respField s.cfg.wCh w)) s with consumer := .atPop }
  | none => { s with consumer := .atPop }

/-- What the consumer does once it has its operation's response (44_host_consumer.md R171). A POP begins an iteration,
wherever the last one stood. An RDWC that follows no successful POP, and a DECODE of another code than the one popped and
tested, are no steps of R171 and make no display call (log 27). -/
def renderStep (i : Instr) (s : State) : State :=
  match i with
  | .tick _ => s
  | .pop => afterPop s
  | .rdwc =>
    match s.consumer with
    | .atPop => s
    | .atRdwc code => afterRdwc code s
    | .atDecode _ => s
  | .decode c =>
    match s.consumer with
    | .atPop => s
    | .atRdwc _ => s
    | .atDecode code => if c = BitVec.ofNat 12 code then afterDecode s else s
  | .reset => s

/-- The consumer issues an operation: the atomic operation, and the display calls that follow it at once (log 10). -/
def consumerStep (i : Instr) (s : State) : Host.Outcome State Fault Refusal := andThen (exec i s) (renderStep i)

/-- The operation the consumer issues next (44_host_consumer.md R171). -/
def nextOp : ConsumerPos → Instr
  | .atPop => .pop
  | .atRdwc _ => .rdwc
  | .atDecode code => .decode (BitVec.ofNat 12 code)

/-- One turn of the running loop: its next operation (44_host_consumer.md R171; log 10). -/
def consumerTurn (s : State) : Host.Outcome State Fault Refusal := consumerStep (nextOp s.consumer) s

end Sys2Proof.Machine
end

