-- ==== Sys2Proof/Machine/Parameters.lean ====
section
/-! DEFINITION. Which parameter values are admitted (00_scope.md R7, R8; 30_encoding.md R70, R82). -/

namespace Sys2Proof

/-- A threshold is an integer in `1 .. 2^W_CD - 1` (00_scope.md R7). -/
def thresholdLegal (wCd t : Nat) : Bool := decide (1 ≤ t) && decide (t < 2 ^ wCd)

/-- The widths: `W_CD >= 8`, `W_PC >= 6`, `W_CUR >= 4` (00_scope.md R8) and `W_PC <= 12` (30_encoding.md R82).
`W_CD`, `W_CUR` and `W_CH` have no greatest value and `W_CH` no least one; what a cursor wider than a response and a
character that does not fit answer is log 29 and log 30. -/
def widthsLegal (c : Config) : Bool :=
  decide (8 ≤ c.wCd) && decide (6 ≤ c.wPc) && decide (c.wPc ≤ 12) && decide (4 ≤ c.wCur)

/-- A configuration the block can be built with. -/
def configLegal (c : Config) : Bool :=
  widthsLegal c && thresholdLegal c.wCd c.tShort && thresholdLegal c.wCd c.tLong
    && thresholdLegal c.wCd c.tDashRearm && thresholdLegal c.wCd c.tCharGap && thresholdLegal c.wCd c.tGrace

end Sys2Proof
end

