-- ==== Sys2Proof/Machine/Moves.lean ====
section
/-! DEFINITION. Taking the next item of the total order of operations (20_memory.md R60). -/

namespace Sys2Proof.Machine

/-- Which agents may issue an operation (60_exceptions.md R206, 92_eei_decisions.md D22). -/
def issuers : Instr → List Agent
  | .tick _ => [.tickSource]
  | .pop => [.consumer]
  | .rdwc => [.consumer]
  | .decode _ => [.tickSource, .consumer]
  | .reset => [.resetSource]

/-- The operation belongs to the consumer alone. -/
def consumerOnly (i : Instr) : Bool := issuers i == [.consumer]

/-- The instruction would come from a second consumer: only the consumer issues it, and the loop of
44_host_consumer.md R171 is running as the one consumer (60_exceptions.md R206; log 12). -/
def secondConsumer (i : Instr) (s : State) : Bool := s.looping && consumerOnly i

/-- A command word: decoded and executed, or refused as 60_exceptions.md R201 says. While the consumer's loop does not
run, the words are the written-out steps of the consumer too (30_encoding.md R85), with the display calls of
44_host_consumer.md R171 that 95_test_vectors.md section 3 gives such a program (log 27). -/
def takeWord (w : Word) (s : State) : Host.Outcome State Fault Refusal :=
  match decodeWord s.cfg.wPc w with
  | .error _ => .next (refuseWord s)
  | .ok i =>
    if secondConsumer i s then .refused .secondConsumer
    else if s.looping then exec i s
    else consumerStep i s

/-- One item of the total order. -/
def takeMove (m : Move) (s : State) : Host.Outcome State Fault Refusal :=
  match m with
  | .word w => takeWord w s
  | .displayInit => .next (displayCall (.init Config.displayInitOptions) s)
  | .consumerStart => .next { s with consumer := .atPop, looping := true }
  | .consumerTurn =>
    if s.looping then consumerTurn s else .refused .consumerNotStarted

/-- The next item, or nothing: with no operation issued every register holds its value (41_timing_fsm.md R109,
20_memory.md R60; log 3). -/
def takeNext (s : State) : Host.Outcome State Fault Refusal :=
  match s.pending with
  | [] => .next s
  | m :: rest => takeMove m { s with pending := rest }

/-- One step of the block that was built with the state's parameters; an illegal configuration is refused
(00_scope.md R7; log 5). -/
def stepOnce (s : State) : Host.Outcome State Fault Refusal :=
  if configLegal s.cfg then takeNext s else .refused .illegalConfiguration

/-- The word as the next item of the total order. Where it decodes to the consumer's own operation while the loop runs,
the loop is stopped, so that there is one consumer (log 2, log 12). -/
def placeWord (w : Word) (s : State) : State :=
  let conflict := match decodeWord s.cfg.wPc w with
    | .ok i => secondConsumer i s
    | .error _ => false
  { s with pending := .word w :: s.pending, looping := if conflict then false else s.looping }

/-- A stimulus program (30_encoding.md R84) as the total order: its words, in order (log 2). -/
def loadProgram (words : List Word) (s : State) : State := { s with pending := words.map .word }

end Sys2Proof.Machine
end

