-- ==== Sys2Proof/Machine/Step.lean ====
section
/-! DEFINITION. The step, and where the next command word stands. -/

namespace Sys2Proof.Machine

/-- One step: the next operation of the total order (20_memory.md R60). -/
def step (s : State) : Host.Outcome State Fault Refusal := stepOnce s

/-- The state with the word of an opcode-table row as the next item of `pending` (log 2). -/
def State.withFetchWord (s : State) (nbits w : Nat) : State := placeWord (tableWord nbits w) s

end Sys2Proof.Machine
end

