-- ==== Sys2Proof/Machine/Assembler.lean ====
section
/-! DEFINITION. Stimulus programs as text: the assembler syntax and the pseudo-instructions (30_encoding.md R84, R85). -/

namespace Sys2Proof.Machine

/-- A line of a stimulus program: an operation, or a pseudo-instruction (30_encoding.md R84, R85). -/
inductive AsmLine where
  | op (i : Instr)
  | press (n : Nat)
  | release (n : Nat)
  | nop
  deriving DecidableEq, Repr

/-- Why a line is no line of a stimulus program. -/
inductive AsmError where
  | unknownMnemonic
  | badOperand
  deriving DecidableEq, Repr

/-- The expansion into operations: `PRESS n` is `n` copies of `TICK 0`, `RELEASE n` of `TICK 1`, and `NOP` is empty
(30_encoding.md R85). -/
def AsmLine.expand : AsmLine → List Instr
  | .op i => [i]
  | .press n => List.replicate n (.tick 0#1)
  | .release n => List.replicate n (.tick 1#1)
  | .nop => []

/-- The text without its comment, which runs from `;` to the end of the line (30_encoding.md R84). -/
def stripComment (line : List Char) : List Char := line.takeWhile (· ≠ ';')

/-- Cut the text at every character that is a separator; empty pieces stay. -/
def splitAt (sep : Char → Bool) : List Char → List (List Char)
  | [] => [[]]
  | c :: cs =>
    match splitAt sep cs with
    | piece :: pieces => if sep c then [] :: piece :: pieces else (c :: piece) :: pieces
    | [] => [[c]]

/-- The blank-separated words of a line (log 22). -/
def tokens (line : List Char) : List (List Char) :=
  (splitAt (fun c => c == ' ' || c == '\t' || c == '\r') line).filter (fun t => !t.isEmpty)

/-- The value of a digit in a base of at most 16. -/
def digitValue (base : Nat) (c : Char) : Option Nat :=
  let d := if '0' ≤ c ∧ c ≤ '9' then some (c.toNat - '0'.toNat)
    else if 'a' ≤ c ∧ c ≤ 'f' then some (c.toNat - 'a'.toNat + 10)
    else if 'A' ≤ c ∧ c ≤ 'F' then some (c.toNat - 'A'.toNat + 10)
    else none
  d.filter (· < base)

/-- The value of a string of digits, read after the value `acc`. -/
def digitsValue (base : Nat) : Nat → List Char → Option Nat
  | acc, [] => some acc
  | acc, c :: cs =>
    match digitValue base c with
    | some d => digitsValue base (acc * base + d) cs
    | none => none

/-- A number, decimal or `0x..` (30_encoding.md R84). -/
def number (t : List Char) : Option Nat :=
  match t with
  | [] => none
  | '0' :: 'x' :: [] => none
  | '0' :: 'x' :: ds => digitsValue 16 0 ds
  | ds => digitsValue 10 0 ds

/-- The repeat count of PRESS and RELEASE, at least 1 (30_encoding.md R85). -/
def repeatCount (t : List Char) : Option Nat := (number t).filter (1 ≤ ·)

/-- The operand of TICK, written `0` or `1` (30_encoding.md R84). -/
def keyLevel (t : List Char) : Option (BitVec 1) :=
  if t = ['0'] then some 0#1 else if t = ['1'] then some 1#1 else none

/-- The operand of DECODE, a number `0 .. 2^W_PC - 1` (30_encoding.md R84). -/
def codeNumber (wPc : Nat) (t : List Char) : Option (BitVec 12) :=
  ((number t).filter (· < 2 ^ wPc)).map (BitVec.ofNat 12)

/-- What a line has after its mnemonic: exactly one operand, read by `read`. -/
def oneOperand {α : Type} (read : List Char → Option α) (mk : α → AsmLine) (operands : List (List Char)) :
    Except AsmError AsmLine :=
  match operands with
  | [t] => match read t with
    | some a => .ok (mk a)
    | none => .error .badOperand
  | _ => .error .badOperand

/-- What a line without operands has after its mnemonic: nothing. -/
def noOperand (line : AsmLine) (operands : List (List Char)) : Except AsmError AsmLine :=
  if operands.isEmpty then .ok line else .error .badOperand

/-- A mnemonic, in capitals, and its operands (30_encoding.md R84, R85). -/
def parseTokens (wPc : Nat) (mnemonic : List Char) (operands : List (List Char)) : Except AsmError AsmLine :=
  if mnemonic = "TICK".toList then oneOperand keyLevel (fun k => .op (.tick k)) operands
  else if mnemonic = "POP".toList then noOperand (.op .pop) operands
  else if mnemonic = "RDWC".toList then noOperand (.op .rdwc) operands
  else if mnemonic = "DECODE".toList then oneOperand (codeNumber wPc) (fun c => .op (.decode c)) operands
  else if mnemonic = "RESET".toList then noOperand (.op .reset) operands
  else if mnemonic = "PRESS".toList then oneOperand repeatCount .press operands
  else if mnemonic = "RELEASE".toList then oneOperand repeatCount .release operands
  else if mnemonic = "NOP".toList then noOperand .nop operands
  else .error .unknownMnemonic

/-- One line of text; mnemonics are case-insensitive (30_encoding.md R84).  A line with nothing but blanks and a
comment is read as NOP (log 22). -/
def parseLine (wPc : Nat) (line : List Char) : Except AsmError AsmLine :=
  match tokens (stripComment line) with
  | [] => .ok .nop
  | mnemonic :: operands => parseTokens wPc (mnemonic.map Char.toUpper) operands

/-- The lines of a program, in order; the first error stands. -/
def parseLines (wPc : Nat) : List (List Char) → Except AsmError (List AsmLine)
  | [] => .ok []
  | l :: ls =>
    match parseLine wPc l with
    | .error e => .error e
    | .ok line =>
      match parseLines wPc ls with
      | .error e => .error e
      | .ok lines => .ok (line :: lines)

/-- The words of a program's lines: straight-line, no labels, no jumps (30_encoding.md R84). -/
def assembleLines (lines : List AsmLine) : List Word := (lines.flatMap AsmLine.expand).map encode

/-- A stimulus program's text as its command words (30_encoding.md R84). -/
def assemble (wPc : Nat) (text : List Char) : Except AsmError (List Word) :=
  match parseLines wPc (splitAt (· == '\n') text) with
  | .error e => .error e
  | .ok lines => .ok (assembleLines lines)

end Sys2Proof.Machine
end

