-- ==== Sys2Proof/Safety.lean ====
section
/-! DEFINITION. What counts as a safe run, in the terms claims use: the invariants of 10_state.md R36, the widths, the
observation of 44_host_consumer.md R175, runs of operations and of steps, and the ring's history
(43_ring_buffer.md R152). -/

namespace Sys2Proof.Machine

/-- The run holds no refused word so far (60_exceptions.md R201). -/
abbrev Clean (s : State) : Prop := s.refused = false

/-- Every register is within its width (00_scope.md R8, R11; 10_state.md R35). -/
abbrev WidthsOk (s : State) : Prop :=
  s.cd < 2 ^ s.cfg.wCd ∧ s.acc < 2 ^ s.cfg.wPc ∧ s.wr < 2 ^ s.cfg.wCur ∧ s.rd < 2 ^ s.cfg.wCur ∧
    (∀ i : Fin 16, s.ring[i] < 2 ^ s.cfg.wPc)

/-- 10_state.md R36(a). -/
abbrev ToneFollowsKey (s : State) : Prop :=
  s.toneEn = true ↔ (s.state = .dotOrDash ∨ s.state = .dashExt)

/-- 10_state.md R36(b). -/
abbrev LevelFollowsPulse (s : State) : Prop :=
  (s.state = .dashExt → s.toneLvl = .dash) ∧ (s.state = .dotOrDash → s.toneLvl = .dot)

/-- 10_state.md R36(c). -/
abbrev CountdownInRange (s : State) : Prop :=
  (s.state = .dotOrDash → 1 ≤ s.cd ∧ s.cd ≤ s.cfg.tShort) ∧
    (s.state = .dashExt → 1 ≤ s.cd ∧ s.cd ≤ s.cfg.tDashRearm) ∧
    (s.state = .symbolGap → 1 ≤ s.cd ∧ s.cd ≤ s.cfg.tLong) ∧
    (s.state = .charGap → 1 ≤ s.cd ∧ s.cd ≤ s.cfg.tCharGap) ∧ (s.state = .idle → s.cd ≤ s.cfg.tGrace)

/-- 10_state.md R36(d); in the combined form a completed code may still stand in `acc` on the one IDLE tick that finds
`cd = 0` (93_implementation_defined.md I3). -/
abbrev NothingPendingInIdle (s : State) : Prop :=
  s.state = .idle → s.acc = Config.sentinel ∨ (s.cfg.gapForm = .combined ∧ s.cd = 0)

/-- The tone port carries the registers (41_timing_fsm.md R109). -/
abbrev PortCarriesRegisters (s : State) : Prop := s.tonePort = ⟨s.toneEn, s.toneLvl⟩

/-- The invariant: a legal configuration, every register within its width, 10_state.md R36 (a) to (d), and the port. -/
structure Inv (s : State) : Prop where
  legal : configLegal s.cfg = true
  widths : WidthsOk s
  tone : ToneFollowsKey s
  level : LevelFollowsPulse s
  countdown : CountdownInRange s
  idle : NothingPendingInIdle s
  port : PortCarriesRegisters s

/-- The block state of 10_state.md R35; the table is constant and the same in every state (log 19). -/
structure BlockState where
  state : TimingState
  cd : Nat
  acc : Nat
  toneEn : Bool
  toneLvl : ToneLevel
  wr : Nat
  rd : Nat
  ring : Vector Nat 16
  deriving DecidableEq, Repr

/-- The observation at the end of a run (44_host_consumer.md R175): the block state, the sequence of responses, the tone
port values after each TICK, and the display log (log 28). -/
structure Observation where
  block : BlockState
  responses : List Word
  tones : List TonePort
  display : List DisplayEvent
  deriving DecidableEq, Repr

/-- The block state in a state. -/
def State.block (s : State) : BlockState := ⟨s.state, s.cd, s.acc, s.toneEn, s.toneLvl, s.wr, s.rd, s.ring⟩

/-- The observation of a state. -/
def observe (s : State) : Observation := ⟨s.block, s.responses, s.tones, s.display⟩

/-- What can be seen outside the block: nothing of the hidden registers (10_state.md R33; log 28). -/
structure Visible where
  responses : List Word
  tones : List TonePort
  tonePort : TonePort
  display : List DisplayEvent
  deriving DecidableEq, Repr

/-- What a state has shown outside. -/
def visible (s : State) : Visible := ⟨s.responses, s.tones, s.tonePort, s.display⟩

/-- A sequence of operations, one after the other, in the total order (20_memory.md R60). -/
def runOps : List Instr → State → Host.Outcome State Fault Refusal
  | [], s => .next s
  | i :: is, s => runOn (exec i s) (runOps is)

/-- `n` steps. -/
def steps : Nat → State → Host.Outcome State Fault Refusal
  | 0, s => .next s
  | n + 1, s => runOn (step s) (steps n)

/-- The end of a stimulus program's run: the state after its last command word (44_host_consumer.md R175). -/
def endOfRun (words : List Word) (s : State) : Host.Outcome State Fault Refusal := steps words.length (loadProgram words s)

/-- `n` ticks with the key held down, and `n` with it up (30_encoding.md R85). -/
abbrev held (n : Nat) : List Instr := List.replicate n (.tick 0#1)

/-- See `held`. -/
abbrev silent (n : Nat) : List Instr := List.replicate n (.tick 1#1)

/-- What the ring can be asked: the producer's PUSH or the consumer's POP (43_ring_buffer.md R157). -/
inductive RingOp where
  | push (code : Nat)
  | pop
  deriving DecidableEq, Repr

/-- A ring and what has happened to it: the codes pushed and the codes popped, in order, counted without wrap
(43_ring_buffer.md R152). -/
structure RingHistory where
  now : State
  pushed : List Nat
  popped : List Nat
  deriving DecidableEq, Repr

/-- The code a POP response carries, if it is valid (30_encoding.md R76). -/
def poppedCode (s : State) : Option Nat :=
  match s.resp with
  | some w => if respValid w then some (respField s.cfg.wPc w) else none
  | none => none

/-- One ring operation: PUSH as TICK makes it, POP as the consumer issues it. -/
def RingHistory.apply (h : RingHistory) (op : RingOp) : RingHistory :=
  match op with
  | .push v => { h with now := Sys2Proof.Machine.push v h.now, pushed := h.pushed ++ [v] }
  | .pop =>
    match exec .pop h.now with
    | .next t => { h with now := t, popped := h.popped ++ (poppedCode t).toList }
    | .fault _ => h
    | .refused _ => h

/-- A sequence of ring operations from a state. -/
def ringHistory (ops : List RingOp) (s : State) : RingHistory :=
  ops.foldl RingHistory.apply ⟨s, [], []⟩

end Sys2Proof.Machine
end

