-- ==== Sys2Proof/Certificates/Slice0/Obligations.lean ====
section
/-! DEFINITION. The statements for the provers, from the numbered rules of spec/. -/

namespace Sys2Proof.Machine

/-- The slot of a cursor value (20_memory.md R57). -/
def slotAt (ring : Vector Nat 16) (cursor : Nat) : Nat := ring[cursor % 16]'(Nat.mod_lt _ (by decide))

/-- What every TICK adds to its transition: the tone port carries the new tone bits, the observation of R175 grows by
them, and there is no response (41_timing_fsm.md R109, 30_encoding.md R70). -/
def tickShown (s : State) : State :=
  { s with
    tonePort := ⟨s.toneEn, s.toneLvl⟩
    tones := s.tones ++ [⟨s.toneEn, s.toneLvl⟩]
    resp := none }

/-- What every answered operation adds: its response word (30_encoding.md R70). -/
def answered (w : Word) (s : State) : State := { s with resp := some w, responses := s.responses ++ [w] }

/-- The ring after one code has gone into the slot of the cursor `k`. -/
abbrev RingHas (before after : Vector Nat 16) (k v : Nat) : Prop :=
  ∀ j : Fin 16, after[j] = if j.val = k % 16 then v else before[j]

/-- The 36 rows of 42_decode_lut.md R141: code, pattern, character. -/
def tableRows : List (Nat × String × Char) :=
  [(0x05, ".-", 'A'), (0x18, "-...", 'B'), (0x1A, "-.-.", 'C'), (0x0C, "-..", 'D'), (0x02, ".", 'E'),
   (0x12, "..-.", 'F'), (0x0E, "--.", 'G'), (0x10, "....", 'H'), (0x04, "..", 'I')] ++
  [(0x17, ".---", 'J'), (0x0D, "-.-", 'K'), (0x14, ".-..", 'L'), (0x07, "--", 'M'), (0x06, "-.", 'N'),
   (0x0F, "---", 'O'), (0x16, ".--.", 'P'), (0x1D, "--.-", 'Q'), (0x0A, ".-.", 'R')] ++
  [(0x08, "...", 'S'), (0x03, "-", 'T'), (0x09, "..-", 'U'), (0x11, "...-", 'V'), (0x0B, ".--", 'W'),
   (0x19, "-..-", 'X'), (0x1B, "-.--", 'Y'), (0x1C, "--..", 'Z'), (0x2F, ".----", '1')] ++
  [(0x27, "..---", '2'), (0x23, "...--", '3'), (0x21, "....-", '4'), (0x20, ".....", '5'), (0x30, "-....", '6'),
   (0x38, "--...", '7'), (0x3C, "---..", '8'), (0x3E, "----.", '9'), (0x3F, "-----", '0')]

/-- The pulses of a pattern, first pulse left: a dot is false, a dash true. -/
def patternPulses (pattern : String) : List Bool := pattern.toList.map (· == '-')

/-- A code is pushed, and the consumer loop takes the three turns that show it, before anything else happens. -/
def showCode (v : Nat) (s : State) : Host.Outcome State Fault Refusal :=
  steps 3 { push v s with pending := [.consumerTurn, .consumerTurn, .consumerTurn] }

/-- Codes pushed and shown one after the other, each before the next. -/
def showCodes : List Nat → State → Host.Outcome State Fault Refusal
  | [], s => .next s
  | v :: vs, s => runOn (showCode v s) (showCodes vs)

/-- The keying of one character's pulses but the last: each a hold and then a gap, in tick samples. -/
def keying (pulses : List (Nat × Nat)) : List Instr := pulses.flatMap fun p => held p.1 ++ silent p.2

end Sys2Proof.Machine

open Sys2Proof Sys2Proof.Machine

/-! ### Encoding -/

/-- Words written out bit by bit from 30_encoding.md R70 decode to what they stand for. -/
def Obligations.WrittenOutWordsDecode : Prop :=
  decodeWord 8 0b0001000000000000#16 = .ok (.tick 0#1) ∧
    decodeWord 8 0b0001000000000001#16 = .ok (.tick 1#1) ∧
    decodeWord 8 0b0010000000000000#16 = .ok .pop ∧
    decodeWord 8 0b0011000000000000#16 = .ok .rdwc ∧
    decodeWord 8 0b0100000000000101#16 = .ok (.decode 0x05#12) ∧
    decodeWord 8 0b0100000011111111#16 = .ok (.decode 0xFF#12) ∧
    decodeWord 8 0b1111000000000000#16 = .ok .reset ∧
    decodeWord 8 0b0001000000000010#16 = .error (.reservedBits 0b0001#4) ∧
    decodeWord 8 0b0100000100000000#16 = .error (.reservedBits 0b0100#4) ∧
    decodeWord 8 0b0101000000000000#16 = .error (.reservedOp 0b0101#4)

/-- Decoding an encoded well-formed instruction gives it back, for every width of the code field. -/
def Obligations.DecodeOfEncodeIsTheInstruction : Prop :=
  ∀ (wPc : Nat) (i : Instr), i.wellFormed wPc = true → decodeWord wPc (encode i) = .ok i

/-- 30_encoding.md R81: which words the decoder reads as which operation; it refuses every other word. -/
def Obligations.DecoderFollowsTheTable : Prop :=
  ∀ (wPc : Nat) (w : Word),
    (decodeWord wPc w = .ok (.tick 0#1) ↔ w = 0x1000#16) ∧
      (decodeWord wPc w = .ok (.tick 1#1) ↔ w = 0x1001#16) ∧
      (decodeWord wPc w = .ok .pop ↔ w = 0x2000#16) ∧
      (decodeWord wPc w = .ok .rdwc ↔ w = 0x3000#16) ∧
      (∀ c : BitVec 12, decodeWord wPc w = .ok (.decode c) ↔ w.toNat = 0x4000 + c.toNat ∧ c.toNat < 2 ^ wPc) ∧
      (decodeWord wPc w = .ok .reset ↔ w = 0xF000#16) ∧
      ((∃ r, decodeWord wPc w = .error r) ↔
        ¬(w = 0x1000#16 ∨ w = 0x1001#16 ∨ w = 0x2000#16 ∨ w = 0x3000#16 ∨ w = 0xF000#16 ∨
          (0x4000 ≤ w.toNat ∧ w.toNat < 0x5000 ∧ w.toNat - 0x4000 < 2 ^ wPc)))

/-! ### The step -/

/-- A command word at the head of the total order runs as the instruction it decodes to (20_memory.md R60). While the
consumer's loop does not run, its display calls follow (log 27; what they are, WrittenOutIterationShowsOneCharacter and
WordsOutOfTurnMakeNoDisplayCall say); they touch nothing but the display log and the consumer's place. -/
def Obligations.StepRunsTheDecodedInstruction : Prop :=
  (∀ (s : State) (w : Word) (rest : List Move) (i : Instr),
    configLegal s.cfg = true → s.pending = .word w :: rest → decodeWord s.cfg.wPc w = .ok i →
      (s.looping = true → i ≠ .pop → i ≠ .rdwc → step s = exec i { s with pending := rest }) ∧
      (s.looping = false → step s = andThen (exec i { s with pending := rest }) (renderStep i))) ∧
    ∀ (i : Instr) (t : State),
      { renderStep i t with display := t.display, consumer := t.consumer } = t ∧
        (i = .tick 0#1 ∨ i = .tick 1#1 ∨ i = .reset → renderStep i t = t)

/-- The word that withFetchWord places is the next one to run, on the state as it was (log 2), as
StepRunsTheDecodedInstruction says; for POP and RDWC the loop is stopped first, so that there is one consumer (log 12). -/
def Obligations.PlacedWordRunsFirst : Prop :=
  ∀ (s : State) (w : Nat) (i : Instr),
    configLegal s.cfg = true → w < 2 ^ 16 → decodeWord s.cfg.wPc (BitVec.ofNat 16 w) = .ok i →
      (s.looping = true → i ≠ .pop → i ≠ .rdwc → step (s.withFetchWord 16 w) = exec i s) ∧
      (s.looping = false → step (s.withFetchWord 16 w) = andThen (exec i s) (renderStep i)) ∧
      (i = .pop ∨ i = .rdwc →
        step (s.withFetchWord 16 w) = andThen (exec i { s with looping := false }) (renderStep i))

/-- 60_exceptions.md R201: a refused word changes nothing but the mark, and gives no response. -/
def Obligations.RefusedWordOnlySetsTheMark : Prop :=
  ∀ (s : State) (w : Word) (rest : List Move) (r : Reject),
    configLegal s.cfg = true → s.pending = .word w :: rest → decodeWord s.cfg.wPc w = .error r →
      step s = .next { s with pending := rest, refused := true, resp := none }

/-- 10_state.md R34: the mark is initially 0, only a refused word sets it, and nothing clears it, RESET included. -/
def Obligations.RefusedMarkIsSticky : Prop :=
  State.reset.refused = false ∧
    (∀ (i : Instr) (s t : State), exec i s = .next t → t.refused = s.refused) ∧
    ∀ s t : State, step s = .next t →
      (t.refused = true ↔
        s.refused = true ∨ ∃ w rest r, s.pending = .word w :: rest ∧ decodeWord s.cfg.wPc w = .error r)

/-- With no operation issued, every register holds its value (the model's choice, log 3). -/
def Obligations.IdleStepChangesNothing : Prop :=
  ∀ s : State, configLegal s.cfg = true → s.pending = [] → step s = .next s

/-- A POP or RDWC word while the consumer loop runs is refused. 60_exceptions.md R206 does not admit a second consumer; that
such a word comes from one, and that the step is then the refusal, is the model's choice (DESIGN CHOICE, log 12). -/
def Obligations.SecondConsumerIsRefused : Prop :=
  ∀ (s : State) (w : Word) (rest : List Move) (i : Instr),
    configLegal s.cfg = true → s.pending = .word w :: rest → decodeWord s.cfg.wPc w = .ok i →
      s.looping = true → (i = .pop ∨ i = .rdwc) → step s = .refused .secondConsumer

/-- 00_scope.md R7: each threshold is an integer in `1 .. 2^W_CD - 1`, 1 to 255 with the default width, and a 0 is refused at
configuration time. That the refusal comes at every step of such a configuration, and of one with a threshold above the range
too, is the model's form (DEDUCED, log 5). -/
def Obligations.ThresholdOutOfRangeIsRefused : Prop :=
  (∀ s : State,
    (∃ t ∈ [s.cfg.tShort, s.cfg.tLong, s.cfg.tDashRearm, s.cfg.tCharGap, s.cfg.tGrace], t = 0 ∨ 2 ^ s.cfg.wCd ≤ t) →
      step s = .refused .illegalConfiguration) ∧
    ∀ a b c d e : Nat, ∀ g : GapForm,
      (∀ t ∈ [a, b, c, d, e], 1 ≤ t ∧ t ≤ 255) →
        ∀ s : State,
          s.cfg = { Config.default with tShort := a, tLong := b, tDashRearm := c, tCharGap := d, tGrace := e, gapForm := g } →
            step s ≠ .refused .illegalConfiguration

/-- 60_exceptions.md R200: no operation has a failure outcome; each completes from every state. -/
def Obligations.EveryOperationCompletes : Prop :=
  ∀ (i : Instr) (s : State), ∃ t, exec i s = .next t

/-- A step of a legal configuration stops only where the host breaks a duty: a second consumer (60_exceptions.md R206),
or a turn of a loop that was not started (70_reset_and_hazards.md R222; log 13). -/
def Obligations.StepStopsOnlyOnABrokenHostDuty : Prop :=
  ∀ s : State, configLegal s.cfg = true →
    (∀ rest, s.pending = .consumerTurn :: rest → s.looping = true) →
      (∀ w rest, s.pending = .word w :: rest → s.looping = true →
        decodeWord s.cfg.wPc w ≠ .ok .pop ∧ decodeWord s.cfg.wPc w ≠ .ok .rdwc) →
        ∃ t, step s = .next t

/-- The parameters are fixed at build time (10_state.md R35): no step changes them. -/
def Obligations.ConfigurationNeverChanges : Prop :=
  ∀ s t : State, step s = .next t → t.cfg = s.cfg

/-! ### Reset -/

/-- 70_reset_and_hazards.md R221, but for the slots, which it leaves unspecified (log 6), with the defaults of
00_scope.md R6 and R8. -/
def Obligations.ResetStateHoldsTheSpecifiedValues : Prop :=
  State.reset.state = .idle ∧ State.reset.wr = 0 ∧ State.reset.rd = 0 ∧ State.reset.cd = 0 ∧ State.reset.acc = 1 ∧
    State.reset.toneEn = false ∧ State.reset.toneLvl = .dot ∧ State.reset.tonePort = ⟨false, .dot⟩ ∧
    (State.reset.cfg.tShort = 128 ∧ State.reset.cfg.tLong = 255 ∧ State.reset.cfg.tDashRearm = 240 ∧
      State.reset.cfg.tCharGap = 128 ∧ State.reset.cfg.tGrace = 64) ∧
    (State.reset.cfg.wCd = 8 ∧ State.reset.cfg.wPc = 8 ∧ State.reset.cfg.wCur = 8 ∧ State.reset.cfg.wCh = 8)

/-- 70_reset_and_hazards.md R220: what the power-cycle leaves, from every state. A slot may hold any value of its width.
POP answers NONE until the first push. -/
def Obligations.ResetOperationPowerCycles : Prop :=
  ∀ s : State, ∃ t, exec .reset s = .next t ∧
    t.state = .idle ∧ t.wr = 0 ∧ t.rd = 0 ∧ t.cd = 0 ∧ t.acc = 1 ∧ t.toneEn = false ∧ t.toneLvl = .dot ∧
    t.tonePort = ⟨false, .dot⟩ ∧ t.resp = none ∧ (∀ i : Fin 16, t.ring[i] < 2 ^ s.cfg.wPc) ∧
    t.refused = s.refused ∧ exec .pop t = .next (answered 0x0000#16 t)

/-- The frame of RESET. The slots are free values, drawn by number, which nothing constrains (the model's form of R220's
"any value", log 7). The parameters stay, and so do the run's own records and the consumer's place (the model's choice,
log 11 and log 15). -/
def Obligations.ResetOperationLeavesTheRest : Prop :=
  ∀ s t : State, exec .reset s = .next t →
    (∀ i : Fin 16, t.ring[i] = Config.freeSlot s.freeCounter i % 2 ^ s.cfg.wPc) ∧ t.freeCounter = s.freeCounter + 1 ∧
      t.cfg = s.cfg ∧ t.responses = s.responses ∧ t.tones = s.tones ∧ t.display = s.display ∧
      t.consumer = s.consumer ∧ t.looping = s.looping ∧ t.pending = s.pending

/-! ### The invariants of 10_state.md R36 -/

/-- The reset state satisfies the invariant. -/
def Obligations.InvariantHoldsAtReset : Prop := Inv State.reset

/-- 10_state.md R36, with the widths and the tone port: every step keeps the invariant. -/
def Obligations.EveryStepKeepsTheInvariant : Prop :=
  ∀ s t : State, Inv s → step s = .next t → Inv t

/-- A power-cycle establishes the invariant from every state of a legal configuration (92_eei_decisions.md D11). -/
def Obligations.PowerCycleEstablishesTheInvariant : Prop :=
  ∀ s : State, configLegal s.cfg = true → ∃ t, exec .reset s = .next t ∧ Inv t

/-! ### TICK, one statement per state -/

/-- 41_timing_fsm.md R104, with START_PULSE of R103. -/
def Obligations.TickInIdle : Prop :=
  ∀ s : State, s.state = .idle →
    exec (.tick 0#1) s = .next (tickShown
      { s with toneEn := true, toneLvl := .dot, cd := s.cfg.tShort, acc := 1, state := .dotOrDash }) ∧
    (1 ≤ s.cd → s.cd < 2 ^ s.cfg.wCd → exec (.tick 1#1) s = .next (tickShown { s with cd := s.cd - 1 })) ∧
    (s.cd = 0 → s.acc = 1 → exec (.tick 1#1) s = .next (tickShown s)) ∧
    (s.cd = 0 → s.acc ≠ 1 → ∃ ring, RingHas s.ring ring s.wr (s.acc % 2 ^ s.cfg.wPc) ∧
      exec (.tick 1#1) s = .next (tickShown
        { s with ring := ring, wr := (s.wr + 1) % 2 ^ s.cfg.wCur, acc := 1, cd := s.cfg.tGrace }))

/-- 41_timing_fsm.md R105: a release is a dot whatever the countdown, an expiry while held is a dash. -/
def Obligations.TickInDotOrDash : Prop :=
  ∀ s : State, s.state = .dotOrDash →
    exec (.tick 1#1) s = .next (tickShown
      { s with acc := (2 * s.acc) % 2 ^ s.cfg.wPc, toneEn := false, cd := s.cfg.tLong, state := .symbolGap }) ∧
    (2 ≤ s.cd → s.cd < 2 ^ s.cfg.wCd → exec (.tick 0#1) s = .next (tickShown { s with cd := s.cd - 1 })) ∧
    (s.cd = 1 → 1 ≤ s.cfg.wCd → exec (.tick 0#1) s = .next (tickShown
      { s with
        acc := (2 * s.acc + 1) % 2 ^ s.cfg.wPc
        toneLvl := .dash
        cd := s.cfg.tDashRearm
        state := .dashExt }))

/-- 41_timing_fsm.md R106. -/
def Obligations.TickInDashExt : Prop :=
  ∀ s : State, s.state = .dashExt →
    exec (.tick 1#1) s = .next (tickShown { s with toneEn := false, cd := s.cfg.tLong, state := .symbolGap }) ∧
    (2 ≤ s.cd → s.cd < 2 ^ s.cfg.wCd → exec (.tick 0#1) s = .next (tickShown { s with cd := s.cd - 1 })) ∧
    (s.cd = 1 → 1 ≤ s.cfg.wCd → exec (.tick 0#1) s = .next (tickShown { s with cd := s.cfg.tDashRearm }))

/-- 41_timing_fsm.md R107. -/
def Obligations.TickInSymbolGap : Prop :=
  ∀ s : State, s.state = .symbolGap →
    exec (.tick 0#1) s = .next (tickShown
      { s with toneEn := true, toneLvl := .dot, cd := s.cfg.tShort, state := .dotOrDash }) ∧
    (2 ≤ s.cd → s.cd < 2 ^ s.cfg.wCd → exec (.tick 1#1) s = .next (tickShown { s with cd := s.cd - 1 })) ∧
    (s.cd = 1 → 1 ≤ s.cfg.wCd → exec (.tick 1#1) s = .next (tickShown { s with cd := s.cfg.tCharGap, state := .charGap }))

/-- 41_timing_fsm.md R108 (the separated form): a press discards the code, the expiry pushes it. -/
def Obligations.TickInCharGap : Prop :=
  ∀ s : State, s.state = .charGap →
    exec (.tick 0#1) s = .next (tickShown
      { s with toneEn := true, toneLvl := .dot, cd := s.cfg.tShort, acc := 1, state := .dotOrDash }) ∧
    (2 ≤ s.cd → s.cd < 2 ^ s.cfg.wCd → exec (.tick 1#1) s = .next (tickShown { s with cd := s.cd - 1 })) ∧
    (s.cd = 1 → 1 ≤ s.cfg.wCd → s.cfg.gapForm = .separated →
      ∃ ring, RingHas s.ring ring s.wr (s.acc % 2 ^ s.cfg.wPc) ∧
        exec (.tick 1#1) s = .next (tickShown
          { s with
            ring := ring
            wr := (s.wr + 1) % 2 ^ s.cfg.wCur
            acc := 1
            cd := s.cfg.tGrace
            state := .idle }))

/-- 93_implementation_defined.md I3, the combined form: the expiry only enters IDLE, the next released tick pushes, and a
press on that one tick starts a new character and loses the code. -/
def Obligations.TickInCharGapCombined : Prop :=
  ∀ s : State, s.state = .charGap → s.cfg.gapForm = .combined → s.cd = 1 → 1 ≤ s.cfg.wCd →
    ∃ t, exec (.tick 1#1) s = .next t ∧ t = tickShown { s with cd := 0, state := .idle } ∧
      (s.acc ≠ 1 → ∃ ring, RingHas s.ring ring s.wr (s.acc % 2 ^ s.cfg.wPc) ∧
        exec (.tick 1#1) t = .next (tickShown
          { t with ring := ring, wr := (s.wr + 1) % 2 ^ s.cfg.wCur, acc := 1, cd := s.cfg.tGrace })) ∧
      exec (.tick 0#1) t = .next (tickShown
        { t with toneEn := true, toneLvl := .dot, cd := s.cfg.tShort, acc := 1, state := .dotOrDash })

/-- 41_timing_fsm.md R109: the port carries the new tone bits after each TICK and holds them until the next TICK or
RESET; the oscillator sounds the preset of the level while the tone is enabled. The log of the port's values grows with each
TICK only, as 44_host_consumer.md R175 observes it; that RESET adds nothing to it is the model's choice (log 16). -/
def Obligations.TonePortFollowsTheTick : Prop :=
  (∀ (k : BitVec 1) (s t : State), exec (.tick k) s = .next t →
    t.tonePort = ⟨t.toneEn, t.toneLvl⟩ ∧ t.tones = s.tones ++ [t.tonePort]) ∧
    (∀ (i : Instr) (s t : State), exec i s = .next t → i ≠ .tick 0#1 → i ≠ .tick 1#1 →
      t.tones = s.tones ∧ (i ≠ .reset → t.tonePort = s.tonePort)) ∧
    ∀ p : TonePort, p.sounding = (match p with
      | ⟨false, _⟩ => none
      | ⟨true, .dot⟩ => some Config.dutyDot
      | ⟨true, .dash⟩ => some Config.dutyDash)

/-- 41_timing_fsm.md R111 and the frame of TICK: at most one push, of `acc`, into the slot of `wr`; from the states of the
invariant only on the expiry tick of CHAR_GAP. Everything outside the timing machine and the ring's producer side stays. -/
def Obligations.TickPushesAtMostOnce : Prop :=
  ∀ (k : BitVec 1) (s t : State), exec (.tick k) s = .next t →
    (t.cfg = s.cfg ∧ t.rd = s.rd ∧ t.refused = s.refused ∧ t.responses = s.responses ∧ t.display = s.display ∧
      t.consumer = s.consumer ∧ t.looping = s.looping ∧ t.pending = s.pending ∧ t.freeCounter = s.freeCounter) ∧
    ((t.wr = s.wr ∧ t.ring = s.ring) ∨
      (t.wr = (s.wr + 1) % 2 ^ s.cfg.wCur ∧ RingHas s.ring t.ring s.wr (s.acc % 2 ^ s.cfg.wPc))) ∧
    (Inv s → s.cfg.gapForm = .separated → ¬(t.wr = s.wr ∧ t.ring = s.ring) →
      s.state = .charGap ∧ k = 1#1 ∧ s.cd = 1)

/-! ### What follows for pulses and gaps -/

/-- 41_timing_fsm.md R112: a hold of at most T_SHORT samples is a dot, classified at the release; a longer one is a dash,
classified on sample T_SHORT + 1, while the key is still down. -/
def Obligations.DotDashBoundary : Prop :=
  ∀ s : State, Inv s → (s.state = .idle ∨ s.state = .symbolGap ∨ s.state = .charGap) →
    ∀ a : Nat, a = (if s.state = .symbolGap then s.acc else 1) →
      (∀ n, 1 ≤ n → n ≤ s.cfg.tShort →
        (∃ u, runOps (held n) s = .next u ∧ u.state = .dotOrDash ∧ u.acc = a ∧ u.toneEn = true ∧ u.toneLvl = .dot) ∧
        ∃ t, runOps (held n ++ [.tick 1#1]) s = .next t ∧ t.state = .symbolGap ∧ t.acc = (2 * a) % 2 ^ s.cfg.wPc ∧
          t.cd = s.cfg.tLong ∧ t.toneEn = false ∧ t.wr = s.wr ∧ t.ring = s.ring) ∧
      (∀ n, s.cfg.tShort + 1 ≤ n →
        (∃ u, runOps (held n) s = .next u ∧ u.state = .dashExt ∧ u.acc = (2 * a + 1) % 2 ^ s.cfg.wPc ∧
          u.toneEn = true ∧ u.toneLvl = .dash) ∧
        ∃ t, runOps (held n ++ [.tick 1#1]) s = .next t ∧ t.state = .symbolGap ∧
          t.acc = (2 * a + 1) % 2 ^ s.cfg.wPc ∧ t.cd = s.cfg.tLong ∧ t.toneEn = false ∧ t.wr = s.wr ∧ t.ring = s.ring)

/-- 41_timing_fsm.md R113: after a release, a press within T_LONG samples continues the symbol, a later one within
T_CHAR_GAP more discards it, and on silent sample T_LONG + T_CHAR_GAP + 1 the code is pushed, once. -/
def Obligations.GapBoundaries : Prop :=
  ∀ s : State, Inv s → s.cfg.gapForm = .separated → (s.state = .dotOrDash ∨ s.state = .dashExt) →
    ∀ a : Nat, a = (if s.state = .dotOrDash then (2 * s.acc) % 2 ^ s.cfg.wPc else s.acc) →
      (∀ g, 1 ≤ g → g ≤ s.cfg.tLong →
        ∃ t, runOps (silent g ++ [.tick 0#1]) s = .next t ∧ t.state = .dotOrDash ∧ t.acc = a ∧ t.wr = s.wr ∧
          t.ring = s.ring) ∧
      (∃ u, runOps (silent (s.cfg.tLong + 1)) s = .next u ∧ u.state = .charGap ∧ u.acc = a ∧ u.cd = s.cfg.tCharGap) ∧
      (∀ g, s.cfg.tLong + 1 ≤ g → g ≤ s.cfg.tLong + s.cfg.tCharGap →
        ∃ t, runOps (silent g ++ [.tick 0#1]) s = .next t ∧ t.state = .dotOrDash ∧ t.acc = 1 ∧ t.wr = s.wr ∧
          t.ring = s.ring) ∧
      (∃ u, runOps (silent (s.cfg.tLong + s.cfg.tCharGap + 1)) s = .next u ∧ u.state = .idle ∧ u.cd = s.cfg.tGrace) ∧
      (∀ g, s.cfg.tLong + s.cfg.tCharGap + 1 ≤ g →
        ∃ t, runOps (silent g) s = .next t ∧ t.state = .idle ∧ t.acc = 1 ∧ t.wr = (s.wr + 1) % 2 ^ s.cfg.wCur ∧
          RingHas s.ring t.ring s.wr a)

/-- 41_timing_fsm.md R115: a dash held on after its classification changes nothing but the countdown, which is re-armed
every T_DASH_REARM ticks; accumulator and ring stay, and so does the port, which carries the tone registers (10_state.md R36;
the invariant's clause of the port). As after every TICK there is no response, and the log of the port grows by the one
value. -/
def Obligations.HeldDashChangesOnlyTheCountdown : Prop :=
  ∀ s : State, configLegal s.cfg = true → s.state = .dashExt → s.cd = s.cfg.tDashRearm → ∀ n : Nat,
    ∃ t, runOps (held n) s = .next t ∧
      t = { s with
        cd := s.cfg.tDashRearm - n % s.cfg.tDashRearm
        tonePort := if n = 0 then s.tonePort else ⟨s.toneEn, s.toneLvl⟩
        tones := s.tones ++ List.replicate n ⟨s.toneEn, s.toneLvl⟩
        resp := if n = 0 then s.resp else none } ∧
      (s.tonePort = ⟨s.toneEn, s.toneLvl⟩ → t.tonePort = s.tonePort)

/-- 41_timing_fsm.md R116: the accumulator holds the code of up to W_PC - 1 pulses; a code of six or more is outside the
table and reads `'*'` (where `'*'` fits W_CH bits; log 30); with W_PC pulses or more only the last W_PC pulse bits are left. -/
def Obligations.LongSymbolsKeepTheLastBits : Prop :=
  ∀ (wPc : Nat) (pulses : List Bool), 6 ≤ wPc →
    let acc := pulses.foldl (fun a p => if p then dashAppend wPc a else dotAppend wPc a) 1
    (pulses.length + 1 ≤ wPc →
      acc = pulseCode pulses ∧ 2 ^ pulses.length ≤ acc ∧ acc < 2 ^ (pulses.length + 1) ∧
        (6 ≤ pulses.length → 64 ≤ acc ∧ ∀ wCh, 6 ≤ wCh → lutRead wCh acc = 0x2A)) ∧
    ∀ early late : List Bool, pulses = early ++ late → late.length = wPc →
      acc = late.foldl (fun a p => 2 * a + p.toNat) 0

/-- 30_encoding.md R71: the code is `2^n + sum p_k * 2^(n-k)`, and the pulses come back out of it. -/
def Obligations.PulseCodeRoundTrip : Prop :=
  (∀ pulses : List Bool,
    pulseCode pulses = 2 ^ pulses.length +
      ((List.range pulses.length).map fun k => (pulses.getD k false).toNat * 2 ^ (pulses.length - (k + 1))).sum ∧
    codePulses (pulseCode pulses) = some pulses) ∧
    (∀ c : Nat, 1 ≤ c → ∃ pulses, codePulses c = some pulses ∧ pulseCode pulses = c) ∧
    codePulses 0 = none ∧ codePulses 1 = some []

/-- The whole path of a keyed character (41_timing_fsm.md R112, R113, R116): pulses of any lengths with gaps of at most
T_LONG, and then T_LONG + T_CHAR_GAP + 1 silent samples, push exactly the code of those pulses, and nothing else moves in
the ring. -/
def Obligations.KeyedCharacterIsPushedOnce : Prop :=
  ∀ (s : State) (pulses : List (Nat × Nat)) (last : Nat),
    Inv s → s.cfg.gapForm = .separated → s.state = .idle →
      (∀ p ∈ pulses, 1 ≤ p.1 ∧ 1 ≤ p.2 ∧ p.2 ≤ s.cfg.tLong) → 1 ≤ last →
        ∃ t, runOps (keying pulses ++ held last ++ silent (s.cfg.tLong + s.cfg.tCharGap + 1)) s = .next t ∧
          t.state = .idle ∧ t.acc = 1 ∧ t.cd = s.cfg.tGrace ∧ t.toneEn = false ∧ t.rd = s.rd ∧
          t.wr = (s.wr + 1) % 2 ^ s.cfg.wCur ∧
          RingHas s.ring t.ring s.wr
            (pulseCode (pulses.map (fun p => decide (s.cfg.tShort < p.1)) ++ [decide (s.cfg.tShort < last)]) %
              2 ^ s.cfg.wPc)

/-- The grace period in IDLE is unobservable (70_reset_and_hazards.md R231): two IDLE states that differ only in `cd` run
alike under every sequence of ticks, and whatever they show is equal. -/
def Obligations.GracePeriodIsUnobservable : Prop :=
  ∀ (s : State) (c₁ c₂ : Nat) (keys : List (BitVec 1)), s.state = .idle → s.acc = 1 →
    ∃ t₁ t₂, runOps (keys.map .tick) { s with cd := c₁ } = .next t₁ ∧
      runOps (keys.map .tick) { s with cd := c₂ } = .next t₂ ∧
      { t₁ with cd := 0 } = { t₂ with cd := 0 } ∧ (t₁.state ≠ .idle → t₁ = t₂) ∧ visible t₁ = visible t₂

/-! ### The decode table -/

/-- 42_decode_lut.md R140 to R142: DECODE answers each of the 36 rows' codes with its character, every other code with
`'*'`, changes nothing else, and each row's code is the R71 code of its pattern. The characters' numbers are ASCII, which
30_encoding.md R74 marks as general knowledge (log 17). Where W_CH, which 00_scope.md R8 does not bound, is too small for a
character, the answer is a free value of W_CH bits: the model's choice (log 30). -/
def Obligations.DecodeAnswersTheTable : Prop :=
  tableRows.length = 36 ∧ (tableRows.map (·.1)).Nodup ∧
    (∀ row ∈ tableRows, pulseCode (patternPulses row.2.1) = row.1) ∧
    ∀ (code : BitVec 12) (s : State) (ch : Nat),
      ((∃ row ∈ tableRows, code.toNat = row.1 ∧ ch = row.2.2.toNat) ∨
        ((∀ row ∈ tableRows, code.toNat ≠ row.1) ∧ ch = 0x2A)) →
          (ch < 2 ^ s.cfg.wCh → exec (.decode code) s = .next (answered (BitVec.ofNat 16 ch) s)) ∧
          (2 ^ s.cfg.wCh ≤ ch → exec (.decode code) s =
            .next (answered (BitVec.ofNat 16 (Config.narrowChar s.cfg.wCh ch % 2 ^ s.cfg.wCh)) s))

/-! ### The ring -/

/-- 43_ring_buffer.md R150: PUSH puts the code into the slot of `wr`, whatever stands there, advances `wr` with wrap, and
changes nothing else. -/
def Obligations.PushWritesSlotThenCursor : Prop :=
  ∀ (v : Nat) (s : State), v < 2 ^ s.cfg.wPc → ∃ ring, RingHas s.ring ring s.wr v ∧
    push v s = { s with ring := ring, wr := (s.wr + 1) % 2 ^ s.cfg.wCur }

/-- 43_ring_buffer.md R151: NONE when the whole cursors are equal, else the code at `rd mod 16`, and `rd` advances. -/
def Obligations.PopAnswersTheSlotAtRd : Prop :=
  ∀ s : State,
    (s.rd = s.wr → exec .pop s = .next (answered 0x0000#16 s)) ∧
    (s.rd ≠ s.wr → exec .pop s = .next (answered (0x8000#16 ||| BitVec.ofNat 16 (slotAt s.ring s.rd))
      { s with rd := (s.rd + 1) % 2 ^ s.cfg.wCur }))

/-- RDWC answers the write cursor and has no side effect, from every state. A cursor that fits the response is
43_ring_buffer.md R155 (RdwcAnswersACursorThatFits); that one of more than 16 bits, which 00_scope.md R8 admits, answers its low
16 is the model's reading of 30_encoding.md R70 (DEDUCED, log 29). -/
def Obligations.RdwcAnswersTheWriteCursor : Prop :=
  ∀ s : State, exec .rdwc s = .next (answered (BitVec.ofNat 16 s.wr) s)

/-- 43_ring_buffer.md R155: RDWC answers the write cursor, zero-extended into the response word, and has no side effect. -/
def Obligations.RdwcAnswersACursorThatFits : Prop :=
  ∀ s : State, s.wr < 2 ^ 16 → ∃ w : Word, w.toNat = s.wr ∧ exec .rdwc s = .next (answered w s)

/-- 43_ring_buffer.md R152: with P pushes and Q successful pops since reset, in any interleaving, the cursors are P and Q
modulo 2^W_CUR, and a successful POP answers the code of push J = P - 1 - ((P - 1 - Q) mod 16), whatever the slots held at
reset. -/
def Obligations.PopReadsTheLatestCodeOfItsSlot : Prop :=
  ∀ (s : State) (ops : List RingOp), configLegal s.cfg = true → s.wr = 0 → s.rd = 0 →
    (∀ v, RingOp.push v ∈ ops → v < 2 ^ s.cfg.wPc) →
      ∀ (h : RingHistory) (p q : Nat), h = ringHistory ops s → p = h.pushed.length → q = h.popped.length →
        h.now.wr = p % 2 ^ s.cfg.wCur ∧ h.now.rd = q % 2 ^ s.cfg.wCur ∧ q ≤ p ∧
          (h.now.rd ≠ h.now.wr → q < p ∧ ∃ v, h.pushed[p - 1 - (p - 1 - q) % 16]? = some v ∧
            exec .pop h.now = .next (answered (0x8000#16 ||| BitVec.ofNat 16 v)
              { h.now with rd := (q + 1) % 2 ^ s.cfg.wCur })) ∧
          (q < p → p - q ≤ 16 → p - 1 - (p - 1 - q) % 16 = q)

/-- 43_ring_buffer.md R153: with D codes unread, 16 < D < 2^W_CUR, the next D POPs all succeed and answer, in slot order,
the most recent 16 codes over and over, none of the older ones; then the buffer is empty. A D that is a multiple of 2^W_CUR
reads as empty. -/
def Obligations.LaggingConsumerSequence : Prop :=
  ∀ (s : State) (ops : List RingOp), configLegal s.cfg = true → s.wr = 0 → s.rd = 0 →
    (∀ v, RingOp.push v ∈ ops → v < 2 ^ s.cfg.wPc) →
      ∀ (h : RingHistory) (p q : Nat), h = ringHistory ops s → p = h.pushed.length → q = h.popped.length →
        (16 < p - q → p - q < 2 ^ s.cfg.wCur →
          (ringHistory (ops ++ List.replicate (p - q) .pop) s).popped =
              h.popped ++ (List.range (p - q)).map
                (fun i => h.pushed.getD (q + i + 16 * ((p - 1 - (q + i)) / 16)) 0) ∧
            exec .pop (ringHistory (ops ++ List.replicate (p - q) .pop) s).now =
              .next (answered 0x0000#16 (ringHistory (ops ++ List.replicate (p - q) .pop) s).now)) ∧
        (16 < p - q → q < q + 16 * ((p - 1 - q) / 16) ∧
          ∀ i < p - q, p - 16 ≤ q + i + 16 * ((p - 1 - (q + i)) / 16) ∧
            q + i + 16 * ((p - 1 - (q + i)) / 16) < p) ∧
        ((p - q) % 2 ^ s.cfg.wCur = 0 → exec .pop h.now = .next (answered 0x0000#16 h.now))

/-- 43_ring_buffer.md R154: while at most 16 codes are unread after each operation, the consumer receives every code
exactly once, in push order; when the buffer reads as empty it has received them all, if the cursors have more than 4 bits
(with W_CUR = 4, which R8 admits, 16 unread codes read as empty, by R153). -/
def Obligations.FifoWithoutOverflow : Prop :=
  ∀ (s : State) (ops : List RingOp), configLegal s.cfg = true → s.wr = 0 → s.rd = 0 →
    (∀ v, RingOp.push v ∈ ops → v < 2 ^ s.cfg.wPc) →
      (∀ pre, pre <+: ops → (ringHistory pre s).pushed.length - (ringHistory pre s).popped.length ≤ 16) →
        (ringHistory ops s).popped <+: (ringHistory ops s).pushed ∧
          (5 ≤ s.cfg.wCur → (ringHistory ops s).now.rd = (ringHistory ops s).now.wr →
            (ringHistory ops s).popped = (ringHistory ops s).pushed)

/-- 10_state.md R28: the producer never reads `rd`: a TICK does the same whatever `rd` is. -/
def Obligations.PushNeverReadsTheReadCursor : Prop :=
  ∀ (k : BitVec 1) (s : State) (r : Nat), ∃ t, exec (.tick k) s = .next t ∧
    exec (.tick k) { s with rd := r } = .next { t with rd := r }

/-! ### Sharing between the contexts -/

/-- 10_state.md R33: `state`, `cd` and `acc` are hidden: POP, RDWC and DECODE answer the same and do the same whatever
they hold, and leave them as they are. -/
def Obligations.ConsumerOperationsCannotSeeHiddenRegisters : Prop :=
  ∀ (i : Instr) (s : State) (x : TimingState) (c a : Nat), (i = .pop ∨ i = .rdwc ∨ ∃ code, i = .decode code) →
    ∃ t, exec i s = .next t ∧ t.state = s.state ∧ t.cd = s.cd ∧ t.acc = s.acc ∧
      exec i { s with state := x, cd := c, acc := a } = .next { t with state := x, cd := c, acc := a }

/-- 10_state.md R22 to R27, 20_memory.md R59: only a TICK or RESET word changes the timing machine's registers, the tone
bits, the write cursor or a slot. -/
def Obligations.OnlyTickAndResetChangeTheTimingMachine : Prop :=
  ∀ s t : State, step s = .next t →
    ¬(t.state = s.state ∧ t.cd = s.cd ∧ t.acc = s.acc ∧ t.toneEn = s.toneEn ∧ t.toneLvl = s.toneLvl ∧
      t.tonePort = s.tonePort ∧ t.wr = s.wr ∧ t.ring = s.ring) →
      ∃ w rest, s.pending = .word w :: rest ∧
        (w = 0x1000#16 ∨ w = 0x1001#16 ∨ w = 0xF000#16)

/-- 10_state.md R28: only a successful POP, by word or by the consumer loop, and RESET move the read cursor. -/
def Obligations.OnlyPopAndResetMoveTheReadCursor : Prop :=
  ∀ s t : State, step s = .next t → t.rd ≠ s.rd →
    (∃ rest, s.pending = .word 0xF000#16 :: rest) ∨
      (s.rd ≠ s.wr ∧ t.rd = (s.rd + 1) % 2 ^ s.cfg.wCur ∧
        ((∃ rest, s.pending = .word 0x2000#16 :: rest) ∨
          ∃ rest, s.pending = .consumerTurn :: rest ∧ s.looping = true ∧ s.consumer = .atPop))

/-! ### The host consumer -/

/-- 44_host_consumer.md R171: one iteration of the loop, in the model's turns (log 10). On NONE it only re-checks. On a code
it reads the write cursor, clears the display and homes its cursor when the low 4 bits are 0, and writes the code's character.
What a response holds of a cursor of more than 16 bits is log 29, what a character is that does not fit W_CH bits log 30. -/
def Obligations.ConsumerIterationShowsOneCharacter : Prop :=
  ∀ (s : State) (rest : List Move), Inv s → s.looping = true → s.consumer = .atPop →
    (s.pending = .consumerTurn :: rest → s.rd = s.wr →
      step s = .next (answered 0x0000#16 { s with pending := rest })) ∧
    (s.pending = .consumerTurn :: .consumerTurn :: .consumerTurn :: rest → s.rd ≠ s.wr →
      steps 3 s = .next
        { s with
          pending := rest
          rd := (s.rd + 1) % 2 ^ s.cfg.wCur
          resp := some (BitVec.ofNat 16 (lutRead s.cfg.wCh (slotAt s.ring s.rd)))
          responses := s.responses ++ [0x8000#16 ||| BitVec.ofNat 16 (slotAt s.ring s.rd), BitVec.ofNat 16 s.wr,
            BitVec.ofNat 16 (lutRead s.cfg.wCh (slotAt s.ring s.rd))]
          display := s.display ++ (if s.wr % 16 = 0 then [.clear, .moveCursor 0 0] else []) ++
            [.writeChar (lutRead s.cfg.wCh (slotAt s.ring s.rd))] })

/-- 44_host_consumer.md R173: when a TICK pushes between the loop's POP and its RDWC, the screen-clear test sees the later
write cursor (the turns are the model's, log 10; a character that does not fit W_CH bits is log 30). -/
def Obligations.ScreenClearTestSeesTheLaterCursor : Prop :=
  ∀ (s : State) (rest : List Move), Inv s → s.looping = true → s.consumer = .atPop → s.rd ≠ s.wr →
    s.state = .charGap → s.cd = 1 → s.cfg.gapForm = .separated →
      s.pending = .consumerTurn :: .word 0x1001#16 :: .consumerTurn :: .consumerTurn :: rest →
        ∃ t, steps 4 s = .next t ∧ t.wr = (s.wr + 1) % 2 ^ s.cfg.wCur ∧
          t.display = s.display ++
            (if (s.wr + 1) % 2 ^ s.cfg.wCur % 16 = 0 then [.clear, .moveCursor 0 0] else []) ++
            [.writeChar (lutRead s.cfg.wCh (slotAt s.ring s.rd))]

/-- 44_host_consumer.md R173: when the consumer shows each code before the next push, the display is cleared immediately
before the 16th, 32nd, 48th, ... code since reset, and the characters come out in push order (the consumer's turns are the
model's, log 10; a character that does not fit W_CH bits is log 30). -/
def Obligations.DisplayClearsEverySixteenthCode : Prop :=
  ∀ (s : State) (codes : List Nat), configLegal s.cfg = true → s.wr = 0 → s.rd = 0 → s.looping = true →
    s.consumer = .atPop →
    (∀ v ∈ codes, v < 2 ^ s.cfg.wPc) →
      ∃ t, showCodes codes s = .next t ∧ t.rd = t.wr ∧
        t.display = s.display ++ codes.zipIdx.flatMap (fun p =>
          (if (p.2 + 1) % 16 = 0 then [.clear, .moveCursor 0 0] else []) ++ [.writeChar (lutRead s.cfg.wCh p.1)])

/-- The host's own moves: the display INIT, the start of the loop, and a turn of a loop that was not started, which is
refused (70_reset_and_hazards.md R222; log 13, log 14). -/
def Obligations.HostMovesDoOnlyWhatTheySay : Prop :=
  ∀ (s : State) (rest : List Move), configLegal s.cfg = true →
    (s.pending = .displayInit :: rest →
      step s = .next { s with pending := rest, display := s.display ++ [.init Config.displayInitOptions] }) ∧
    (s.pending = .consumerStart :: rest → step s = .next { s with pending := rest, consumer := .atPop, looping := true }) ∧
    (s.pending = .consumerTurn :: rest → s.looping = false → step s = .refused .consumerNotStarted)

/-! ### Stimulus programs -/

/-- 30_encoding.md R85: PRESS n is n copies of 0x1000, RELEASE n of 0x1001, and NOP expands to nothing. -/
def Obligations.PseudoInstructionsExpand : Prop :=
  ∀ n : Nat,
    assembleLines [.press n] = List.replicate n 0x1000#16 ∧
      assembleLines [.release n] = List.replicate n 0x1001#16 ∧ assembleLines [.nop] = []

/-! ### The consumer's steps written out, and the end of a run -/

/-- 44_host_consumer.md R171 and 30_encoding.md R85: a stimulus program writes the consumer's steps out, and each of them
makes the display calls of R171 (log 27): POP, then RDWC, then DECODE of the popped code, as in 95_test_vectors.md P1, show
one character as an iteration of the loop does; a POP on an empty buffer is all of its iteration. Words that are not the
consumer's, and refused words, may stand in between: they leave the consumer's place. What a response holds of a cursor of more than 16 bits is
log 29, what a character is that does not fit W_CH bits log 30. -/
def Obligations.WrittenOutIterationShowsOneCharacter : Prop :=
  ∀ (s : State) (rest : List Move), Inv s → s.looping = false →
    (s.pending = .word 0x2000#16 :: rest → s.rd = s.wr →
      step s = .next (answered 0x0000#16 { s with pending := rest, consumer := .atPop })) ∧
    (s.pending = .word 0x2000#16 :: .word 0x3000#16 ::
        .word (BitVec.ofNat 16 (0x4000 + slotAt s.ring s.rd)) :: rest → s.rd ≠ s.wr →
      steps 3 s = .next
        { s with
          pending := rest
          rd := (s.rd + 1) % 2 ^ s.cfg.wCur
          consumer := .atPop
          resp := some (BitVec.ofNat 16 (lutRead s.cfg.wCh (slotAt s.ring s.rd)))
          responses := s.responses ++ [0x8000#16 ||| BitVec.ofNat 16 (slotAt s.ring s.rd), BitVec.ofNat 16 s.wr,
            BitVec.ofNat 16 (lutRead s.cfg.wCh (slotAt s.ring s.rd))]
          display := s.display ++ (if s.wr % 16 = 0 then [.clear, .moveCursor 0 0] else []) ++
            [.writeChar (lutRead s.cfg.wCh (slotAt s.ring s.rd))] }) ∧
    ∀ (w : Word) (t : State), s.pending = .word w :: rest → step s = .next t → t.consumer ≠ s.consumer →
      decodeWord s.cfg.wPc w = .ok .pop ∨ decodeWord s.cfg.wPc w = .ok .rdwc ∨
        ∃ c, decodeWord s.cfg.wPc w = .ok (.decode c)

/-- A word makes no display call, and leaves the consumer's place, where it is no step of R171's iteration: any word while the
loop runs, an RDWC that follows no successful POP, a DECODE of another code than the one popped and tested (the model's
choice, log 27); and no POP, TICK, RESET or refused word makes one. -/
def Obligations.WordsOutOfTurnMakeNoDisplayCall : Prop :=
  ∀ (s t : State) (w : Word) (rest : List Move), s.pending = .word w :: rest → step s = .next t →
    (s.looping = true → t.display = s.display ∧ t.consumer = s.consumer) ∧
    (decodeWord s.cfg.wPc w = .ok .rdwc → (∀ code, s.consumer ≠ .atRdwc code) →
      t.display = s.display ∧ t.consumer = s.consumer) ∧
    (∀ c : BitVec 12, decodeWord s.cfg.wPc w = .ok (.decode c) →
      (∀ code, s.consumer = .atDecode code → c ≠ BitVec.ofNat 12 code) →
        t.display = s.display ∧ t.consumer = s.consumer) ∧
    (decodeWord s.cfg.wPc w ≠ .ok .rdwc → (∀ c, decodeWord s.cfg.wPc w ≠ .ok (.decode c)) → t.display = s.display)

/-- A turn of the running loop does what the word of its next operation does where a program writes the consumer's steps out
(44_host_consumer.md R171, 30_encoding.md R85; the two forms are the model's, log 10 and log 27). -/
def Obligations.ConsumerTurnIsTheWrittenOutWord : Prop :=
  ∀ (s t : State) (rest : List Move), s.looping = true → s.pending = .consumerTurn :: rest →
    (∀ code, s.consumer = .atDecode code → code < 2 ^ s.cfg.wPc) → step s = .next t →
      ∀ w : Word, (w = match s.consumer with
          | .atPop => 0x2000#16
          | .atRdwc _ => 0x3000#16
          | .atDecode code => BitVec.ofNat 16 (0x4000 + code)) →
        step { s with looping := false, pending := .word w :: rest } = .next { t with looping := false }

/-- A stimulus program loaded as pending words (the model's choice, log 2) runs to its end, the state after its last word,
where 44_host_consumer.md R175 observes it. There the sequence of responses has grown by one for each POP, RDWC and DECODE
word, the tone port's by one for each TICK word, and the run is marked exactly if one of its words was refused, or it was
marked before. That the counts run on past a refused word, where 60_exceptions.md R201 keeps claims out (DEDUCED, log 9), and
across a RESET, which keeps both sequences and adds to neither (DESIGN CHOICE, log 15, log 16), is the model's. -/
def Obligations.ProgramRunsToItsEnd : Prop :=
  ∀ (words : List Word) (s : State), configLegal s.cfg = true → s.looping = false →
    ∃ t, endOfRun words s = .next t ∧ t.pending = [] ∧ t.looping = false ∧ t.cfg = s.cfg ∧
      (t.refused = true ↔ s.refused = true ∨ ∃ w ∈ words, ∃ r, decodeWord s.cfg.wPc w = .error r) ∧
      t.tones.length = s.tones.length + words.countP (fun w => w == 0x1000#16 || w == 0x1001#16) ∧
      t.responses.length = s.responses.length + words.countP (fun w => w == 0x2000#16 || w == 0x3000#16 ||
        (decide (0x4000 ≤ w.toNat) && decide (w.toNat < 0x4000 + 2 ^ s.cfg.wPc)))
end

