-- ==== Sys2Proof/Laws/State.lean ====
section
/-! SUPPORT. One lemma per field of State per shared update, each true by rfl. -/

namespace Sys2Proof.Machine

@[simp] theorem memWrite_cfg (i : Fin 16) (v : Nat) (s : State) : (memWrite i v s).cfg = s.cfg := rfl
@[simp] theorem memWrite_state (i : Fin 16) (v : Nat) (s : State) : (memWrite i v s).state = s.state := rfl
@[simp] theorem memWrite_cd (i : Fin 16) (v : Nat) (s : State) : (memWrite i v s).cd = s.cd := rfl
@[simp] theorem memWrite_acc (i : Fin 16) (v : Nat) (s : State) : (memWrite i v s).acc = s.acc := rfl
@[simp] theorem memWrite_toneEn (i : Fin 16) (v : Nat) (s : State) : (memWrite i v s).toneEn = s.toneEn := rfl
@[simp] theorem memWrite_toneLvl (i : Fin 16) (v : Nat) (s : State) : (memWrite i v s).toneLvl = s.toneLvl := rfl
@[simp] theorem memWrite_tonePort (i : Fin 16) (v : Nat) (s : State) : (memWrite i v s).tonePort = s.tonePort := rfl
@[simp] theorem memWrite_wr (i : Fin 16) (v : Nat) (s : State) : (memWrite i v s).wr = s.wr := rfl
@[simp] theorem memWrite_rd (i : Fin 16) (v : Nat) (s : State) : (memWrite i v s).rd = s.rd := rfl
@[simp] theorem memWrite_ring (i : Fin 16) (v : Nat) (s : State) : (memWrite i v s).ring = s.ring.set i (wrap s.cfg.wPc v) := rfl
@[simp] theorem memWrite_refused (i : Fin 16) (v : Nat) (s : State) : (memWrite i v s).refused = s.refused := rfl
@[simp] theorem memWrite_resp (i : Fin 16) (v : Nat) (s : State) : (memWrite i v s).resp = s.resp := rfl
@[simp] theorem memWrite_responses (i : Fin 16) (v : Nat) (s : State) : (memWrite i v s).responses = s.responses := rfl
@[simp] theorem memWrite_tones (i : Fin 16) (v : Nat) (s : State) : (memWrite i v s).tones = s.tones := rfl
@[simp] theorem memWrite_display (i : Fin 16) (v : Nat) (s : State) : (memWrite i v s).display = s.display := rfl
@[simp] theorem memWrite_consumer (i : Fin 16) (v : Nat) (s : State) : (memWrite i v s).consumer = s.consumer := rfl
@[simp] theorem memWrite_looping (i : Fin 16) (v : Nat) (s : State) : (memWrite i v s).looping = s.looping := rfl
@[simp] theorem memWrite_pending (i : Fin 16) (v : Nat) (s : State) : (memWrite i v s).pending = s.pending := rfl
@[simp] theorem memWrite_freeCounter (i : Fin 16) (v : Nat) (s : State) : (memWrite i v s).freeCounter = s.freeCounter := rfl

@[simp] theorem push_cfg (v : Nat) (s : State) : (push v s).cfg = s.cfg := rfl
@[simp] theorem push_state (v : Nat) (s : State) : (push v s).state = s.state := rfl
@[simp] theorem push_cd (v : Nat) (s : State) : (push v s).cd = s.cd := rfl
@[simp] theorem push_acc (v : Nat) (s : State) : (push v s).acc = s.acc := rfl
@[simp] theorem push_toneEn (v : Nat) (s : State) : (push v s).toneEn = s.toneEn := rfl
@[simp] theorem push_toneLvl (v : Nat) (s : State) : (push v s).toneLvl = s.toneLvl := rfl
@[simp] theorem push_tonePort (v : Nat) (s : State) : (push v s).tonePort = s.tonePort := rfl
@[simp] theorem push_wr (v : Nat) (s : State) : (push v s).wr = cursorNext s.cfg.wCur s.wr := rfl
@[simp] theorem push_rd (v : Nat) (s : State) : (push v s).rd = s.rd := rfl
@[simp] theorem push_ring (v : Nat) (s : State) : (push v s).ring = s.ring.set (slotOf s.wr) (wrap s.cfg.wPc v) := rfl
@[simp] theorem push_refused (v : Nat) (s : State) : (push v s).refused = s.refused := rfl
@[simp] theorem push_resp (v : Nat) (s : State) : (push v s).resp = s.resp := rfl
@[simp] theorem push_responses (v : Nat) (s : State) : (push v s).responses = s.responses := rfl
@[simp] theorem push_tones (v : Nat) (s : State) : (push v s).tones = s.tones := rfl
@[simp] theorem push_display (v : Nat) (s : State) : (push v s).display = s.display := rfl
@[simp] theorem push_consumer (v : Nat) (s : State) : (push v s).consumer = s.consumer := rfl
@[simp] theorem push_looping (v : Nat) (s : State) : (push v s).looping = s.looping := rfl
@[simp] theorem push_pending (v : Nat) (s : State) : (push v s).pending = s.pending := rfl
@[simp] theorem push_freeCounter (v : Nat) (s : State) : (push v s).freeCounter = s.freeCounter := rfl

@[simp] theorem emitTone_cfg (s : State) : (emitTone s).cfg = s.cfg := rfl
@[simp] theorem emitTone_state (s : State) : (emitTone s).state = s.state := rfl
@[simp] theorem emitTone_cd (s : State) : (emitTone s).cd = s.cd := rfl
@[simp] theorem emitTone_acc (s : State) : (emitTone s).acc = s.acc := rfl
@[simp] theorem emitTone_toneEn (s : State) : (emitTone s).toneEn = s.toneEn := rfl
@[simp] theorem emitTone_toneLvl (s : State) : (emitTone s).toneLvl = s.toneLvl := rfl
@[simp] theorem emitTone_tonePort (s : State) : (emitTone s).tonePort = ⟨s.toneEn, s.toneLvl⟩ := rfl
@[simp] theorem emitTone_wr (s : State) : (emitTone s).wr = s.wr := rfl
@[simp] theorem emitTone_rd (s : State) : (emitTone s).rd = s.rd := rfl
@[simp] theorem emitTone_ring (s : State) : (emitTone s).ring = s.ring := rfl
@[simp] theorem emitTone_refused (s : State) : (emitTone s).refused = s.refused := rfl
@[simp] theorem emitTone_resp (s : State) : (emitTone s).resp = s.resp := rfl
@[simp] theorem emitTone_responses (s : State) : (emitTone s).responses = s.responses := rfl
@[simp] theorem emitTone_tones (s : State) : (emitTone s).tones = s.tones := rfl
@[simp] theorem emitTone_display (s : State) : (emitTone s).display = s.display := rfl
@[simp] theorem emitTone_consumer (s : State) : (emitTone s).consumer = s.consumer := rfl
@[simp] theorem emitTone_looping (s : State) : (emitTone s).looping = s.looping := rfl
@[simp] theorem emitTone_pending (s : State) : (emitTone s).pending = s.pending := rfl
@[simp] theorem emitTone_freeCounter (s : State) : (emitTone s).freeCounter = s.freeCounter := rfl

@[simp] theorem logTone_cfg (s : State) : (logTone s).cfg = s.cfg := rfl
@[simp] theorem logTone_state (s : State) : (logTone s).state = s.state := rfl
@[simp] theorem logTone_cd (s : State) : (logTone s).cd = s.cd := rfl
@[simp] theorem logTone_acc (s : State) : (logTone s).acc = s.acc := rfl
@[simp] theorem logTone_toneEn (s : State) : (logTone s).toneEn = s.toneEn := rfl
@[simp] theorem logTone_toneLvl (s : State) : (logTone s).toneLvl = s.toneLvl := rfl
@[simp] theorem logTone_tonePort (s : State) : (logTone s).tonePort = s.tonePort := rfl
@[simp] theorem logTone_wr (s : State) : (logTone s).wr = s.wr := rfl
@[simp] theorem logTone_rd (s : State) : (logTone s).rd = s.rd := rfl
@[simp] theorem logTone_ring (s : State) : (logTone s).ring = s.ring := rfl
@[simp] theorem logTone_refused (s : State) : (logTone s).refused = s.refused := rfl
@[simp] theorem logTone_resp (s : State) : (logTone s).resp = s.resp := rfl
@[simp] theorem logTone_responses (s : State) : (logTone s).responses = s.responses := rfl
@[simp] theorem logTone_tones (s : State) : (logTone s).tones = s.tones ++ [s.tonePort] := rfl
@[simp] theorem logTone_display (s : State) : (logTone s).display = s.display := rfl
@[simp] theorem logTone_consumer (s : State) : (logTone s).consumer = s.consumer := rfl
@[simp] theorem logTone_looping (s : State) : (logTone s).looping = s.looping := rfl
@[simp] theorem logTone_pending (s : State) : (logTone s).pending = s.pending := rfl
@[simp] theorem logTone_freeCounter (s : State) : (logTone s).freeCounter = s.freeCounter := rfl

@[simp] theorem respond_cfg (w : Word) (s : State) : (respond w s).cfg = s.cfg := rfl
@[simp] theorem respond_state (w : Word) (s : State) : (respond w s).state = s.state := rfl
@[simp] theorem respond_cd (w : Word) (s : State) : (respond w s).cd = s.cd := rfl
@[simp] theorem respond_acc (w : Word) (s : State) : (respond w s).acc = s.acc := rfl
@[simp] theorem respond_toneEn (w : Word) (s : State) : (respond w s).toneEn = s.toneEn := rfl
@[simp] theorem respond_toneLvl (w : Word) (s : State) : (respond w s).toneLvl = s.toneLvl := rfl
@[simp] theorem respond_tonePort (w : Word) (s : State) : (respond w s).tonePort = s.tonePort := rfl
@[simp] theorem respond_wr (w : Word) (s : State) : (respond w s).wr = s.wr := rfl
@[simp] theorem respond_rd (w : Word) (s : State) : (respond w s).rd = s.rd := rfl
@[simp] theorem respond_ring (w : Word) (s : State) : (respond w s).ring = s.ring := rfl
@[simp] theorem respond_refused (w : Word) (s : State) : (respond w s).refused = s.refused := rfl
@[simp] theorem respond_resp (w : Word) (s : State) : (respond w s).resp = some w := rfl
@[simp] theorem respond_responses (w : Word) (s : State) : (respond w s).responses = s.responses ++ [w] := rfl
@[simp] theorem respond_tones (w : Word) (s : State) : (respond w s).tones = s.tones := rfl
@[simp] theorem respond_display (w : Word) (s : State) : (respond w s).display = s.display := rfl
@[simp] theorem respond_consumer (w : Word) (s : State) : (respond w s).consumer = s.consumer := rfl
@[simp] theorem respond_looping (w : Word) (s : State) : (respond w s).looping = s.looping := rfl
@[simp] theorem respond_pending (w : Word) (s : State) : (respond w s).pending = s.pending := rfl
@[simp] theorem respond_freeCounter (w : Word) (s : State) : (respond w s).freeCounter = s.freeCounter := rfl

@[simp] theorem noResponse_cfg (s : State) : (noResponse s).cfg = s.cfg := rfl
@[simp] theorem noResponse_state (s : State) : (noResponse s).state = s.state := rfl
@[simp] theorem noResponse_cd (s : State) : (noResponse s).cd = s.cd := rfl
@[simp] theorem noResponse_acc (s : State) : (noResponse s).acc = s.acc := rfl
@[simp] theorem noResponse_toneEn (s : State) : (noResponse s).toneEn = s.toneEn := rfl
@[simp] theorem noResponse_toneLvl (s : State) : (noResponse s).toneLvl = s.toneLvl := rfl
@[simp] theorem noResponse_tonePort (s : State) : (noResponse s).tonePort = s.tonePort := rfl
@[simp] theorem noResponse_wr (s : State) : (noResponse s).wr = s.wr := rfl
@[simp] theorem noResponse_rd (s : State) : (noResponse s).rd = s.rd := rfl
@[simp] theorem noResponse_ring (s : State) : (noResponse s).ring = s.ring := rfl
@[simp] theorem noResponse_refused (s : State) : (noResponse s).refused = s.refused := rfl
@[simp] theorem noResponse_resp (s : State) : (noResponse s).resp = none := rfl
@[simp] theorem noResponse_responses (s : State) : (noResponse s).responses = s.responses := rfl
@[simp] theorem noResponse_tones (s : State) : (noResponse s).tones = s.tones := rfl
@[simp] theorem noResponse_display (s : State) : (noResponse s).display = s.display := rfl
@[simp] theorem noResponse_consumer (s : State) : (noResponse s).consumer = s.consumer := rfl
@[simp] theorem noResponse_looping (s : State) : (noResponse s).looping = s.looping := rfl
@[simp] theorem noResponse_pending (s : State) : (noResponse s).pending = s.pending := rfl
@[simp] theorem noResponse_freeCounter (s : State) : (noResponse s).freeCounter = s.freeCounter := rfl

@[simp] theorem refuseWord_cfg (s : State) : (refuseWord s).cfg = s.cfg := rfl
@[simp] theorem refuseWord_state (s : State) : (refuseWord s).state = s.state := rfl
@[simp] theorem refuseWord_cd (s : State) : (refuseWord s).cd = s.cd := rfl
@[simp] theorem refuseWord_acc (s : State) : (refuseWord s).acc = s.acc := rfl
@[simp] theorem refuseWord_toneEn (s : State) : (refuseWord s).toneEn = s.toneEn := rfl
@[simp] theorem refuseWord_toneLvl (s : State) : (refuseWord s).toneLvl = s.toneLvl := rfl
@[simp] theorem refuseWord_tonePort (s : State) : (refuseWord s).tonePort = s.tonePort := rfl
@[simp] theorem refuseWord_wr (s : State) : (refuseWord s).wr = s.wr := rfl
@[simp] theorem refuseWord_rd (s : State) : (refuseWord s).rd = s.rd := rfl
@[simp] theorem refuseWord_ring (s : State) : (refuseWord s).ring = s.ring := rfl
@[simp] theorem refuseWord_refused (s : State) : (refuseWord s).refused = true := rfl
@[simp] theorem refuseWord_resp (s : State) : (refuseWord s).resp = none := rfl
@[simp] theorem refuseWord_responses (s : State) : (refuseWord s).responses = s.responses := rfl
@[simp] theorem refuseWord_tones (s : State) : (refuseWord s).tones = s.tones := rfl
@[simp] theorem refuseWord_display (s : State) : (refuseWord s).display = s.display := rfl
@[simp] theorem refuseWord_consumer (s : State) : (refuseWord s).consumer = s.consumer := rfl
@[simp] theorem refuseWord_looping (s : State) : (refuseWord s).looping = s.looping := rfl
@[simp] theorem refuseWord_pending (s : State) : (refuseWord s).pending = s.pending := rfl
@[simp] theorem refuseWord_freeCounter (s : State) : (refuseWord s).freeCounter = s.freeCounter := rfl

@[simp] theorem displayCall_cfg (e : DisplayEvent) (s : State) : (displayCall e s).cfg = s.cfg := rfl
@[simp] theorem displayCall_state (e : DisplayEvent) (s : State) : (displayCall e s).state = s.state := rfl
@[simp] theorem displayCall_cd (e : DisplayEvent) (s : State) : (displayCall e s).cd = s.cd := rfl
@[simp] theorem displayCall_acc (e : DisplayEvent) (s : State) : (displayCall e s).acc = s.acc := rfl
@[simp] theorem displayCall_toneEn (e : DisplayEvent) (s : State) : (displayCall e s).toneEn = s.toneEn := rfl
@[simp] theorem displayCall_toneLvl (e : DisplayEvent) (s : State) : (displayCall e s).toneLvl = s.toneLvl := rfl
@[simp] theorem displayCall_tonePort (e : DisplayEvent) (s : State) : (displayCall e s).tonePort = s.tonePort := rfl
@[simp] theorem displayCall_wr (e : DisplayEvent) (s : State) : (displayCall e s).wr = s.wr := rfl
@[simp] theorem displayCall_rd (e : DisplayEvent) (s : State) : (displayCall e s).rd = s.rd := rfl
@[simp] theorem displayCall_ring (e : DisplayEvent) (s : State) : (displayCall e s).ring = s.ring := rfl
@[simp] theorem displayCall_refused (e : DisplayEvent) (s : State) : (displayCall e s).refused = s.refused := rfl
@[simp] theorem displayCall_resp (e : DisplayEvent) (s : State) : (displayCall e s).resp = s.resp := rfl
@[simp] theorem displayCall_responses (e : DisplayEvent) (s : State) : (displayCall e s).responses = s.responses := rfl
@[simp] theorem displayCall_tones (e : DisplayEvent) (s : State) : (displayCall e s).tones = s.tones := rfl
@[simp] theorem displayCall_display (e : DisplayEvent) (s : State) : (displayCall e s).display = s.display ++ [e] := rfl
@[simp] theorem displayCall_consumer (e : DisplayEvent) (s : State) : (displayCall e s).consumer = s.consumer := rfl
@[simp] theorem displayCall_looping (e : DisplayEvent) (s : State) : (displayCall e s).looping = s.looping := rfl
@[simp] theorem displayCall_pending (e : DisplayEvent) (s : State) : (displayCall e s).pending = s.pending := rfl
@[simp] theorem displayCall_freeCounter (e : DisplayEvent) (s : State) : (displayCall e s).freeCounter = s.freeCounter := rfl

@[simp] theorem startPulse_cfg (b : Bool) (s : State) : (startPulse b s).cfg = s.cfg := rfl
@[simp] theorem startPulse_state (b : Bool) (s : State) : (startPulse b s).state = .dotOrDash := rfl
@[simp] theorem startPulse_cd (b : Bool) (s : State) : (startPulse b s).cd = s.cfg.tShort := rfl
@[simp] theorem startPulse_acc (b : Bool) (s : State) : (startPulse b s).acc = if b then Config.sentinel else s.acc := rfl
@[simp] theorem startPulse_toneEn (b : Bool) (s : State) : (startPulse b s).toneEn = true := rfl
@[simp] theorem startPulse_toneLvl (b : Bool) (s : State) : (startPulse b s).toneLvl = .dot := rfl
@[simp] theorem startPulse_tonePort (b : Bool) (s : State) : (startPulse b s).tonePort = s.tonePort := rfl
@[simp] theorem startPulse_wr (b : Bool) (s : State) : (startPulse b s).wr = s.wr := rfl
@[simp] theorem startPulse_rd (b : Bool) (s : State) : (startPulse b s).rd = s.rd := rfl
@[simp] theorem startPulse_ring (b : Bool) (s : State) : (startPulse b s).ring = s.ring := rfl
@[simp] theorem startPulse_refused (b : Bool) (s : State) : (startPulse b s).refused = s.refused := rfl
@[simp] theorem startPulse_resp (b : Bool) (s : State) : (startPulse b s).resp = s.resp := rfl
@[simp] theorem startPulse_responses (b : Bool) (s : State) : (startPulse b s).responses = s.responses := rfl
@[simp] theorem startPulse_tones (b : Bool) (s : State) : (startPulse b s).tones = s.tones := rfl
@[simp] theorem startPulse_display (b : Bool) (s : State) : (startPulse b s).display = s.display := rfl
@[simp] theorem startPulse_consumer (b : Bool) (s : State) : (startPulse b s).consumer = s.consumer := rfl
@[simp] theorem startPulse_looping (b : Bool) (s : State) : (startPulse b s).looping = s.looping := rfl
@[simp] theorem startPulse_pending (b : Bool) (s : State) : (startPulse b s).pending = s.pending := rfl
@[simp] theorem startPulse_freeCounter (b : Bool) (s : State) : (startPulse b s).freeCounter = s.freeCounter := rfl

end Sys2Proof.Machine
end

