-- ==== Sys2Proof/Laws/Ops.lean ====
section
/-! SUPPORT. For each shared operation, what it does, said once. -/

namespace Sys2Proof.Machine

/-! ### Parameters -/

/-- What a legal configuration gives (00_scope.md R7, R8). -/
theorem configLegal_iff (c : Config) :
    configLegal c = true ↔
      (8 ≤ c.wCd ∧ 6 ≤ c.wPc ∧ c.wPc ≤ 12 ∧ 4 ≤ c.wCur) ∧
        (1 ≤ c.tShort ∧ c.tShort < 2 ^ c.wCd) ∧ (1 ≤ c.tLong ∧ c.tLong < 2 ^ c.wCd) ∧
        (1 ≤ c.tDashRearm ∧ c.tDashRearm < 2 ^ c.wCd) ∧ (1 ≤ c.tCharGap ∧ c.tCharGap < 2 ^ c.wCd) ∧
        (1 ≤ c.tGrace ∧ c.tGrace < 2 ^ c.wCd) := by
  simp [configLegal, widthsLegal, thresholdLegal, and_assoc]

theorem default_legal : configLegal Config.default = true := by decide

/-! ### Arithmetic -/

theorem wrap_lt (w v : Nat) : wrap w v < 2 ^ w := Nat.mod_lt _ (Nat.two_pow_pos w)

/-- The countdown in a timed state simply goes down (41_timing_fsm.md R101). -/
theorem decrement_of_pos {w cd : Nat} (h1 : 1 ≤ cd) (h2 : cd < 2 ^ w) : decrement w cd = cd - 1 := by
  have : cd + (2 ^ w - 1) = (cd - 1) + 2 ^ w := by omega
  rw [decrement, wrap, this, Nat.add_mod_right, Nat.mod_eq_of_lt (by omega)]

theorem decrement_lt (w cd : Nat) : decrement w cd < 2 ^ w := wrap_lt _ _

theorem dotAppend_eq (w a : Nat) : dotAppend w a = (2 * a) % 2 ^ w := by
  simp [dotAppend, wrap, Nat.shiftLeft_eq, Nat.mul_comm]

theorem dashAppend_eq (w a : Nat) : dashAppend w a = (2 * a + 1) % 2 ^ w := by
  simp [dashAppend, wrap, Nat.shiftLeft_eq, Nat.mul_comm]

@[simp] theorem pressed_zero : pressed 0#1 = true := rfl

@[simp] theorem pressed_one : pressed 1#1 = false := rfl

/-! ### The ring -/

@[simp] theorem slotOf_val (c : Nat) : (slotOf c).val = c % 16 := rfl

/-- A read after a write of the same slot gives the value written. -/
theorem memRead_memWrite_same (i : Fin 16) (v : Nat) (s : State) :
    memRead i (memWrite i v s) = wrap s.cfg.wPc v := by
  simp [memRead]

/-- A write leaves every other slot alone. -/
theorem memRead_memWrite_other {i j : Fin 16} (h : j ≠ i) (v : Nat) (s : State) :
    memRead j (memWrite i v s) = memRead j s := by
  have : i.val ≠ j.val := fun e => h (Fin.ext e.symm)
  simp [memRead, Vector.getElem_set_ne, this]

/-- Every slot after a PUSH (43_ring_buffer.md R150). -/
theorem push_slot (v : Nat) (s : State) (j : Fin 16) :
    (push v s).ring[j] = if j.val = s.wr % 16 then wrap s.cfg.wPc v else s.ring[j] := by
  simp only [push_ring, Fin.getElem_fin, Vector.getElem_set, slotOf_val]
  split <;> split <;> first | rfl | omega

/-- PUSH keeps every register within its width. -/
theorem push_widthsOk {s : State} (h : WidthsOk s) (v : Nat) : WidthsOk (push v s) := by
  obtain ⟨h1, h2, _, h4, h5⟩ := h
  refine ⟨h1, h2, wrap_lt _ _, h4, fun j => ?_⟩
  rw [push_slot]
  split
  · exact wrap_lt _ _
  · exact h5 j

/-! ### Responses -/

theorem respValid_popResponse (v : Nat) : respValid (popResponse v) = true := by
  simp [respValid, popResponse]

@[simp] theorem respValid_zero : respValid 0#16 = false := rfl

/-- The code comes back out of POP's response (30_encoding.md R76). -/
theorem respField_popResponse {w v : Nat} (hw : w ≤ 12) (hv : v < 2 ^ w) :
    respField w (popResponse v) = v := by
  have h12 : 2 ^ w ≤ 2 ^ 12 := Nat.pow_le_pow_right (by decide) hw
  have hz : (zext16 v).toNat = v := by
    simp only [zext16, BitVec.toNat_ofNat]; exact Nat.mod_eq_of_lt (by omega)
  apply Nat.eq_of_testBit_eq
  intro i
  simp only [respField, wrap, popResponse, BitVec.toNat_or, hz, Nat.testBit_mod_two_pow, Nat.testBit_or]
  by_cases hi : i < w
  · have h15 : i ≠ 15 := by omega
    have : Nat.testBit 32768 i = false := by
      have : i < 15 := by omega
      interval_cases i <;> rfl
    simp [hi, this]
  · have : v.testBit i = false := Nat.testBit_lt_two_pow (lt_of_lt_of_le hv (Nat.pow_le_pow_right (by decide) (by omega)))
    simp [hi, this]

/-- A value that fits its field and the response comes back out of the response (30_encoding.md R70). -/
theorem respField_zext16 {w v : Nat} (hv : v < 2 ^ w) (h16 : v < 2 ^ 16) : respField w (zext16 v) = v := by
  simp only [respField, wrap, zext16, BitVec.toNat_ofNat]
  rw [Nat.mod_eq_of_lt h16, Nat.mod_eq_of_lt hv]

/-- The low 4 bits of the write cursor, of whatever width, are in the response (44_host_consumer.md R171). -/
theorem respField_four_zext16 (v : Nat) : respField 4 (zext16 v) = v % 16 := by
  simp only [respField, wrap, zext16, BitVec.toNat_ofNat]
  omega

/-- Every character of the table has 7 bits (42_decode_lut.md R141). -/
theorem tableChar_lt (c : Nat) : tableChar c < 2 ^ 7 := by
  unfold tableChar
  cases h : (lutLetters ++ lutDigits).lookup c with
  | none => decide
  | some v =>
    have hall : ∀ p ∈ lutLetters ++ lutDigits, p.2 < 2 ^ 7 := by decide
    have hmem : (c, v) ∈ lutLetters ++ lutDigits := by
      rw [List.lookup_eq_some_iff] at h
      obtain ⟨l₁, l₂, h, -⟩ := h
      simp [h]
    exact hall _ hmem

/-- Where the character fits `W_CH` bits, the entry is its number. -/
theorem fitChar_of_lt {wCh ch : Nat} (h : ch < 2 ^ wCh) : fitChar wCh ch = ch := if_pos h

/-- Where it does not, the entry is the free value. -/
theorem fitChar_of_le {wCh ch : Nat} (h : 2 ^ wCh ≤ ch) :
    fitChar wCh ch = Config.narrowChar wCh ch % 2 ^ wCh := if_neg (Nat.not_lt.2 h)

/-- Every entry has `W_CH` bits (10_state.md R30). -/
theorem lutRead_lt (wCh c : Nat) : lutRead wCh c < 2 ^ wCh := by
  unfold lutRead fitChar
  split
  · assumption
  · exact wrap_lt _ _

/-- Every entry fits a response (30_encoding.md R70). -/
theorem lutRead_lt_word (wCh c : Nat) : lutRead wCh c < 2 ^ 16 := by
  have h7 := tableChar_lt c
  unfold lutRead fitChar
  split
  · omega
  · have := wrap_lt wCh (Config.narrowChar wCh (tableChar c))
    omega

/-! ### The meanings and the step -/

theorem exec_tick (k : BitVec 1) (s : State) :
    exec (.tick k) s = .next (noResponse (logTone (emitTone (tickTransition (pressed k) s)))) := rfl

/-- What TICK does to the ring and to the fields no transition touches. -/
theorem tickTransition_ring (p : Bool) (s : State) :
    (tickTransition p s).cfg = s.cfg ∧ (tickTransition p s).rd = s.rd ∧
      (((tickTransition p s).wr = s.wr ∧ (tickTransition p s).ring = s.ring) ∨
        ((tickTransition p s).wr = (push s.acc s).wr ∧ (tickTransition p s).ring = (push s.acc s).ring)) := by
  cases hst : s.state <;> cases p <;> simp [tickTransition, hst, tickIdle, tickDotOrDash, tickDashExt, tickSymbolGap,
    tickCharGap, charGapExpiry] <;> (repeat' split) <;> simp

/-- POP, its two answers (43_ring_buffer.md R151). -/
theorem exec_pop_empty {s : State} (h : s.rd = s.wr) : exec .pop s = .next (respond 0#16 s) := by
  simp [exec, execPop, ringEmpty, h]

theorem exec_pop_some {s : State} (h : s.rd ≠ s.wr) :
    exec .pop s =
      .next (respond (popResponse s.ring[slotOf s.rd]) { s with rd := cursorNext s.cfg.wCur s.rd }) := by
  simp [exec, execPop, ringEmpty, h, memRead]

theorem exec_rdwc (s : State) : exec .rdwc s = .next (respond (zext16 s.wr) s) := rfl

theorem exec_decode (c : BitVec 12) (s : State) :
    exec (.decode c) s = .next (respond (zext16 (lutRead s.cfg.wCh c.toNat)) s) := rfl

/-- Continuing from a next state. -/
@[simp] theorem andThen_next (s : State) (f : State → State) : andThen (.next s) f = .next (f s) := rfl

@[simp] theorem runOn_next (s : State) (f : State → Host.Outcome State Fault Refusal) : runOn (.next s) f = f s := rfl

/-! ### Runs -/

@[simp] theorem runOps_nil (s : State) : runOps [] s = .next s := rfl

theorem runOps_cons (i : Instr) (is : List Instr) (s : State) : runOps (i :: is) s = runOn (exec i s) (runOps is) := rfl

/-- The first operation of a run done. -/
theorem runOps_cons_of_next {i : Instr} {is : List Instr} {s t : State} (h : exec i s = .next t) :
    runOps (i :: is) s = runOps is t := by
  rw [runOps_cons, h, runOn_next]

/-- A run in two parts. -/
theorem runOps_append (xs ys : List Instr) (s : State) : runOps (xs ++ ys) s = runOn (runOps xs s) (runOps ys) := by
  induction xs generalizing s with
  | nil => rfl
  | cons i is ih =>
    rw [List.cons_append, runOps_cons, runOps_cons]
    cases exec i s with
    | next t => exact ih t
    | fault r => rfl
    | refused r => rfl

@[simp] theorem steps_zero (s : State) : steps 0 s = .next s := rfl

/-- The first step of a run done. -/
theorem steps_succ_of_next {n : Nat} {s t : State} (h : step s = .next t) : steps (n + 1) s = steps n t := by
  rw [show steps (n + 1) s = runOn (step s) (steps n) from rfl, h, runOn_next]

/-! ### What a step has done -/

/-- What a step that answers a next state has done. -/
theorem step_next_cases {s t : State} (h : step s = .next t) :
    configLegal s.cfg = true ∧
      ((s.pending = [] ∧ t = s) ∨
        ∃ m rest, s.pending = m :: rest ∧ takeMove m { s with pending := rest } = .next t) := by
  unfold step stepOnce takeNext at h
  split at h
  · rename_i hl
    refine ⟨hl, ?_⟩
    split at h
    · rename_i hp
      exact .inl ⟨hp, by cases h; rfl⟩
    · rename_i m rest hp
      exact .inr ⟨m, rest, hp, h⟩
  · cases h

/-! ### The consumer's steps (44_host_consumer.md R171) -/

/-- The display calls and the consumer's place are all that follows an operation. -/
theorem renderStep_frame (i : Instr) (s : State) :
    renderStep i s = { s with consumer := (renderStep i s).consumer, display := (renderStep i s).display } := by
  cases i with
  | tick k => rfl
  | pop => simp only [renderStep, afterPop]; split <;> rfl
  | rdwc =>
    cases hc : s.consumer <;> simp only [renderStep, hc, afterRdwc] <;>
      first | (rw [← hc]) | (split <;> (try split) <;> rfl)
  | decode c =>
    cases hc : s.consumer <;> simp only [renderStep, hc, afterDecode] <;>
      first | (rw [← hc]) | (split <;> (try split) <;> rfl)
  | reset => rfl

@[simp] theorem renderStep_cfg (i : Instr) (s : State) : (renderStep i s).cfg = s.cfg := by
  rw [renderStep_frame]
@[simp] theorem renderStep_state (i : Instr) (s : State) : (renderStep i s).state = s.state := by
  rw [renderStep_frame]
@[simp] theorem renderStep_cd (i : Instr) (s : State) : (renderStep i s).cd = s.cd := by
  rw [renderStep_frame]
@[simp] theorem renderStep_acc (i : Instr) (s : State) : (renderStep i s).acc = s.acc := by
  rw [renderStep_frame]
@[simp] theorem renderStep_toneEn (i : Instr) (s : State) : (renderStep i s).toneEn = s.toneEn := by
  rw [renderStep_frame]
@[simp] theorem renderStep_toneLvl (i : Instr) (s : State) : (renderStep i s).toneLvl = s.toneLvl := by
  rw [renderStep_frame]
@[simp] theorem renderStep_tonePort (i : Instr) (s : State) : (renderStep i s).tonePort = s.tonePort := by
  rw [renderStep_frame]
@[simp] theorem renderStep_wr (i : Instr) (s : State) : (renderStep i s).wr = s.wr := by
  rw [renderStep_frame]
@[simp] theorem renderStep_rd (i : Instr) (s : State) : (renderStep i s).rd = s.rd := by
  rw [renderStep_frame]
@[simp] theorem renderStep_ring (i : Instr) (s : State) : (renderStep i s).ring = s.ring := by
  rw [renderStep_frame]
@[simp] theorem renderStep_refused (i : Instr) (s : State) : (renderStep i s).refused = s.refused := by
  rw [renderStep_frame]
@[simp] theorem renderStep_resp (i : Instr) (s : State) : (renderStep i s).resp = s.resp := by
  rw [renderStep_frame]
@[simp] theorem renderStep_responses (i : Instr) (s : State) : (renderStep i s).responses = s.responses := by
  rw [renderStep_frame]
@[simp] theorem renderStep_tones (i : Instr) (s : State) : (renderStep i s).tones = s.tones := by
  rw [renderStep_frame]
@[simp] theorem renderStep_looping (i : Instr) (s : State) : (renderStep i s).looping = s.looping := by
  rw [renderStep_frame]
@[simp] theorem renderStep_pending (i : Instr) (s : State) : (renderStep i s).pending = s.pending := by
  rw [renderStep_frame]
@[simp] theorem renderStep_freeCounter (i : Instr) (s : State) : (renderStep i s).freeCounter = s.freeCounter := by
  rw [renderStep_frame]

@[simp] theorem renderStep_tick (k : BitVec 1) (s : State) : renderStep (.tick k) s = s := rfl

@[simp] theorem renderStep_reset (s : State) : renderStep .reset s = s := rfl

theorem renderStep_rdwc_atRdwc {s : State} {code : Nat} (hc : s.consumer = .atRdwc code) :
    renderStep .rdwc s = afterRdwc code s := by
  simp only [renderStep, hc]

/-- What follows an operation does not depend on whether the loop runs. -/
theorem renderStep_setLooping (i : Instr) (s : State) (b : Bool) :
    renderStep i { s with looping := b } = { renderStep i s with looping := b } := by
  cases i with
  | tick k => rfl
  | pop => simp only [renderStep, afterPop]; split <;> rfl
  | rdwc => simp only [renderStep, afterRdwc]; repeat' split
            all_goals rfl
  | decode c => simp only [renderStep, afterDecode]; repeat' split
                all_goals rfl
  | reset => rfl

/-- An RDWC that follows no successful POP is no step of R171 (log 27). -/
theorem renderStep_rdwc_other {s : State} (h : ∀ code, s.consumer ≠ .atRdwc code) : renderStep .rdwc s = s := by
  cases hc : s.consumer <;> simp_all [renderStep]

theorem renderStep_decode_atDecode {s : State} {code : Nat} (hc : s.consumer = .atDecode code) :
    renderStep (.decode (BitVec.ofNat 12 code)) s = afterDecode s := by
  simp only [renderStep, hc, if_true]

/-- A DECODE of another code than the one popped and tested is no step of R171 (log 27). -/
theorem renderStep_decode_other {s : State} {c : BitVec 12}
    (h : ∀ code, s.consumer = .atDecode code → c ≠ BitVec.ofNat 12 code) : renderStep (.decode c) s = s := by
  cases hc : s.consumer <;> simp_all [renderStep]

/-- A step of the consumer completes where its operation does. -/
theorem consumerStep_of_next {i : Instr} {s t : State} (h : exec i s = .next t) :
    consumerStep i s = .next (renderStep i t) := by
  rw [consumerStep, h, andThen_next]

theorem consumerStep_next_cases {i : Instr} {s t : State} (h : consumerStep i s = .next t) :
    ∃ u, exec i s = .next u ∧ t = renderStep i u := by
  unfold consumerStep at h
  cases he : exec i s with
  | next u => rw [he, andThen_next] at h; cases h; exact ⟨u, rfl, rfl⟩
  | fault r => rw [he] at h; cases h
  | refused r => rw [he] at h; cases h

theorem consumerStep_pop_none {s : State} (h : s.rd = s.wr) :
    consumerStep .pop s = .next { respond 0#16 s with consumer := .atPop } := by
  rw [consumerStep_of_next (exec_pop_empty h)]; rfl

theorem consumerStep_pop_some {s : State} {v : Nat} (hw : s.cfg.wPc ≤ 12) (h : s.rd ≠ s.wr)
    (hs : s.ring[slotOf s.rd] = v) (hv : v < 2 ^ s.cfg.wPc) :
    consumerStep .pop s = .next
      { respond (popResponse v) s with rd := cursorNext s.cfg.wCur s.rd, consumer := .atRdwc v } := by
  rw [consumerStep_of_next (exec_pop_some h), hs]
  simp only [renderStep, afterPop, respond, respValid_popResponse, respField_popResponse hw hv, if_true]

theorem consumerStep_rdwc {s : State} {code : Nat} (hc : s.consumer = .atRdwc code) :
    consumerStep .rdwc s = .next
      { respond (zext16 s.wr) s with
        display := s.display ++ (if s.wr % 16 = 0 then [.clear, .moveCursor 0 0] else [])
        consumer := .atDecode code } := by
  rw [consumerStep_of_next (exec_rdwc s), renderStep_rdwc_atRdwc (s := respond _ s) (code := code) hc]
  simp only [afterRdwc, respond, respField_four_zext16]
  split <;> simp [displayCall]

theorem consumerStep_decode {s : State} {code : Nat} (hd : s.consumer = .atDecode code) (hc : code < 2 ^ 12) :
    consumerStep (.decode (BitVec.ofNat 12 code)) s = .next
      { respond (zext16 (lutRead s.cfg.wCh code)) s with
        display := s.display ++ [.writeChar (lutRead s.cfg.wCh code)]
        consumer := .atPop } := by
  have e : (BitVec.ofNat 12 code).toNat = code := by rw [BitVec.toNat_ofNat, Nat.mod_eq_of_lt hc]
  rw [consumerStep_of_next (exec_decode _ s), renderStep_decode_atDecode (s := respond _ s) (code := code) hd]
  simp only [afterDecode, respond, e, respField_zext16 (lutRead_lt _ _) (lutRead_lt_word _ _), displayCall]

/-- A turn of the running loop is the consumer's next step. -/
theorem step_consumerTurn {s : State} {pos : ConsumerPos} {rest : List Move} (hl : configLegal s.cfg = true)
    (hp : s.pending = .consumerTurn :: rest) (hr : s.looping = true) (hc : s.consumer = pos) :
    step s = consumerStep (nextOp pos) { s with pending := rest } := by
  subst hc
  simp [step, stepOnce, hl, takeNext, hp, takeMove, hr, consumerTurn]

/-- While the loop does not run, a command word is a step of whoever issues it, the consumer among them. -/
theorem step_word {s : State} {w : Word} {i : Instr} {rest : List Move} (hl : configLegal s.cfg = true)
    (hp : s.pending = .word w :: rest) (hd : decodeWord s.cfg.wPc w = .ok i) (hr : s.looping = false) :
    step s = consumerStep i { s with pending := rest } := by
  simp [step, stepOnce, hl, takeNext, hp, takeMove, takeWord, hd, secondConsumer, hr]

/-- While the loop runs, a word that is not the consumer's own is its operation alone. -/
theorem step_word_looping {s : State} {w : Word} {i : Instr} {rest : List Move} (hl : configLegal s.cfg = true)
    (hp : s.pending = .word w :: rest) (hd : decodeWord s.cfg.wPc w = .ok i) (hr : s.looping = true)
    (hi : i ≠ .pop ∧ i ≠ .rdwc) : step s = exec i { s with pending := rest } := by
  obtain ⟨h1, h2⟩ := hi
  cases i <;> first
    | contradiction
    | simp [step, stepOnce, hl, takeNext, hp, takeMove, takeWord, hd, secondConsumer, hr, consumerOnly, issuers]

/-- What a command word that answers a next state has done: refused (60_exceptions.md R201), or executed, with the
consumer's display calls after it while the loop does not run. -/
theorem takeWord_next_cases {w : Word} {s t : State} (h : takeWord w s = .next t) :
    (∃ r, decodeWord s.cfg.wPc w = .error r ∧ t = refuseWord s) ∨
      ∃ i u, decodeWord s.cfg.wPc w = .ok i ∧ exec i s = .next u ∧
        ((s.looping = true ∧ t = u) ∨ (s.looping = false ∧ t = renderStep i u)) := by
  unfold takeWord at h
  split at h
  · rename_i r hr
    exact .inl ⟨r, hr, by cases h; rfl⟩
  · rename_i i hi
    split at h
    · cases h
    split at h
    · rename_i hr
      exact .inr ⟨i, t, hi, h, .inl ⟨hr, rfl⟩⟩
    · rename_i hr
      obtain ⟨u, hu, rfl⟩ := consumerStep_next_cases h
      exact .inr ⟨i, u, hi, hu, .inr ⟨by simpa using hr, rfl⟩⟩

/-- Everything a step that answers a next state can have done: nothing, for want of an item; a call of the display's INIT; the
start of the loop; a refused word; an executed word, with the consumer's display calls while the loop does not run; a turn of
the running loop. -/
theorem step_cases {s t : State} (h : step s = .next t) :
    configLegal s.cfg = true ∧
      ((s.pending = [] ∧ t = s) ∨
        (∃ rest, s.pending = .displayInit :: rest ∧
          t = displayCall (.init Config.displayInitOptions) { s with pending := rest }) ∨
        (∃ rest, s.pending = .consumerStart :: rest ∧
          t = { s with pending := rest, consumer := .atPop, looping := true }) ∨
        (∃ w rest r, s.pending = .word w :: rest ∧ decodeWord s.cfg.wPc w = .error r ∧
          t = refuseWord { s with pending := rest }) ∨
        (∃ w rest i u, s.pending = .word w :: rest ∧ decodeWord s.cfg.wPc w = .ok i ∧
          exec i { s with pending := rest } = .next u ∧
            ((s.looping = true ∧ t = u) ∨ (s.looping = false ∧ t = renderStep i u))) ∨
        (∃ rest u, s.pending = .consumerTurn :: rest ∧ s.looping = true ∧
          exec (nextOp s.consumer) { s with pending := rest } = .next u ∧ t = renderStep (nextOp s.consumer) u)) := by
  obtain ⟨hl, ⟨hp, rfl⟩ | ⟨m, rest, hp, h⟩⟩ := step_next_cases h
  · exact ⟨hl, .inl ⟨hp, rfl⟩⟩
  · refine ⟨hl, .inr ?_⟩
    cases m with
    | word w =>
      rcases takeWord_next_cases h with ⟨r, hr, rfl⟩ | ⟨i, u, hd, hu, ht⟩
      · exact .inr (.inr (.inl ⟨w, rest, r, hp, hr, rfl⟩))
      · exact .inr (.inr (.inr (.inl ⟨w, rest, i, u, hp, hd, hu, ht⟩)))
    | displayInit => cases h; exact .inl ⟨rest, hp, rfl⟩
    | consumerStart => cases h; exact .inr (.inl ⟨rest, hp, rfl⟩)
    | consumerTurn =>
      simp only [takeMove] at h
      split at h
      · rename_i hr
        obtain ⟨u, hu, rfl⟩ := consumerStep_next_cases h
        exact .inr (.inr (.inr (.inr ⟨rest, u, hp, hr, hu, rfl⟩)))
      · cases h

end Sys2Proof.Machine
end

