-- ==== Sys2Proof/Laws/PerInstr.lean ====
section
/-! SUPPORT. The per-instruction family TableRow: a well-formed instruction's word matches its row of
spec/opcode_table.json (30_encoding.md R86). -/

namespace Sys2Proof.Laws.TableRow

/-- The `match` and the `mask` of an instruction's row, with the default widths (30_encoding.md R86). -/
def row : Instr → Word × Word
  | .tick _ => (0x1000#16, 0xFFFE#16)
  | .pop => (0x2000#16, 0xFFFF#16)
  | .rdwc => (0x3000#16, 0xFFFF#16)
  | .decode _ => (0x4000#16, 0xFF00#16)
  | .reset => (0xF000#16, 0xFFFF#16)

/-- The instruction's word, masked, is its row's match value. -/
def Statement (i : Instr) : Prop := i.wellFormed 8 = true → encode i &&& (row i).2 = (row i).1

theorem tick (keyN : BitVec 1) : Statement (.tick keyN) := by
  intro _
  revert keyN
  decide

theorem pop : Statement .pop := fun _ => by decide

theorem rdwc : Statement .rdwc := fun _ => by decide

theorem decode (code : BitVec 12) : Statement (.decode code) := by
  intro h
  have hc : code.toNat < 256 := by simpa [Instr.wellFormed] using h
  have hcode : code = (0#4 ++ BitVec.ofNat 8 code.toNat : BitVec 12) := by
    apply BitVec.eq_of_toNat_eq
    rw [BitVec.toNat_append, BitVec.toNat_ofNat, BitVec.toNat_ofNat, Nat.mod_eq_of_lt (b := 2 ^ 8) hc]
    simp
  rw [hcode]
  generalize BitVec.ofNat 8 code.toNat = x
  simp only [encode, row]
  revert x
  decide

theorem reset : Statement .reset := fun _ => by decide

end Sys2Proof.Laws.TableRow
end

