-- ==== Sys2Proof/Tests/Slice0.lean ====
section
/-! SUPPORT. Tests, whose expected values are those of spec/95_test_vectors.md and of the rules' own examples, and for every
statement with hypotheses a witness that meets them (witness_<Name>, one for each clause, at the ends of its range). -/

namespace Sys2Proof.Tests

open Sys2Proof Sys2Proof.Machine

/-- A state in the notation of 95_test_vectors.md: (state, cd, acc, tone_en, tone_lvl, wr, rd). -/
def at_ (st : TimingState) (cd acc : Nat) (en : Bool) (lvl : ToneLevel) (wr rd : Nat) : State :=
  { State.reset with
    state := st, cd := cd, acc := acc, toneEn := en, toneLvl := lvl, tonePort := ⟨en, lvl⟩, wr := wr, rd := rd }

/-- The same with one slot written. -/
def withSlot (i : Fin 16) (v : Nat) (s : State) : State := { s with ring := s.ring.set i v }

/-- The same with the rest of the total order. -/
def withPending (ms : List Move) (s : State) : State := { s with pending := ms }

/-- The same with other widths of the cursors. -/
def withCur (w : Nat) (s : State) : State := { s with cfg := { s.cfg with wCur := w } }

/-- The same with another width of the characters. -/
def withCh (w : Nat) (s : State) : State := { s with cfg := { s.cfg with wCh := w } }

/-- The same in the combined form. -/
def combined (s : State) : State := { s with cfg := { s.cfg with gapForm := .combined } }

/-- The same with the consumer loop running, at a place. -/
def looping (pos : ConsumerPos) (s : State) : State := { s with consumer := pos, looping := true }

/-- The same with the consumer's written-out steps at a place. -/
def writing (pos : ConsumerPos) (s : State) : State := { s with consumer := pos }

/-- Whether an outcome is a next state with a property. -/
def goes (o : Host.Outcome State Fault Refusal) (p : State → Bool) : Bool :=
  match o with
  | .next s => p s
  | .fault _ => false
  | .refused _ => false

/-- Whether an outcome is a next state at all. -/
abbrev completes (o : Host.Outcome State Fault Refusal) : Prop := goes o (fun _ => true) = true

/-- The refusal an outcome is, if it is one. -/
def refusal (o : Host.Outcome State Fault Refusal) : Option Refusal :=
  match o with
  | .next _ => none
  | .fault _ => none
  | .refused r => some r

/-- The state's registers are those of a state in the notation of 95_test_vectors.md. -/
def sameRegs (a b : State) : Bool :=
  a.state == b.state && a.cd == b.cd && a.acc == b.acc && a.toneEn == b.toneEn && a.toneLvl == b.toneLvl
    && a.wr == b.wr && a.rd == b.rd && a.tonePort == b.tonePort

/-! ### Decoding, words laid out by 30_encoding.md R70 -/

theorem test_decode_tick : decodeWord 8 (0b0001#4 ++ 0b00000000000#11 ++ 1#1) = .ok (.tick 1#1) := by decide

theorem test_decode_pop : decodeWord 8 (0b0010#4 ++ 0b000000000000#12) = .ok .pop := by decide

theorem test_decode_rdwc : decodeWord 8 (0b0011#4 ++ 0b000000000000#12) = .ok .rdwc := by decide

theorem test_decode_decode : decodeWord 8 (0b0100#4 ++ 0b0000#4 ++ 0b00011010#8) = .ok (.decode 0x1A#12) := by decide

theorem test_decode_reset : decodeWord 8 (0b1111#4 ++ 0b000000000000#12) = .ok .reset := by decide

/-- 95_test_vectors.md section 2.5: all are refused. -/
theorem test_refused_words : ([0x0000, 0x1002, 0x1FFF, 0x2001, 0x3001, 0x4100, 0x4F00, 0x5000, 0x8000, 0xE000, 0xF001,
    0xFFFF].all fun w => decodeTableWord 16 w == none) = true := by decide

/-- 95_test_vectors.md section 2.5: the legal neighbours. -/
theorem test_legal_neighbours : ([0x1001, 0x2000, 0x3000, 0x40FF, 0xF000].all fun w => decodeTableWord 16 w != none) =
    true := by decide

/-! ### Well-formedness -/

theorem test_wellFormed_refuses_wide_code : Instr.wellFormed 8 (.decode 0x100#12) = false := by decide

theorem test_wellFormed_takes_largest_code : Instr.wellFormed 8 (.decode 0xFF#12) = true := by decide

/-! ### Configurations (00_scope.md R7, R8; 30_encoding.md R82) -/

theorem test_config_refuses_zero_threshold : configLegal { Config.default with tGrace := 0 } = false := by decide

theorem test_config_refuses_wide_threshold : configLegal { Config.default with tLong := 256 } = false := by decide

theorem test_config_refuses_widths : configLegal { Config.default with wPc := 13 } = false ∧
    configLegal { Config.default with wPc := 5 } = false ∧ configLegal { Config.default with wCur := 3 } = false := by
  decide

/-- 00_scope.md R8 bounds the widths of `cd`, the cursors and the characters from below at most. -/
theorem test_config_takes_widths : configLegal { Config.default with wCur := 4 } = true ∧
    configLegal { Config.default with wCur := 20 } = true ∧ configLegal { Config.default with wCd := 20 } = true ∧
    configLegal { Config.default with wCh := 6 } = true ∧ configLegal { Config.default with wCh := 32 } = true := by decide

/-! ### Data encodings (30_encoding.md R71, R72, R73) -/

theorem test_code_of_A : pulseCode [false, true] = 0x05 ∧ codePulses 0x05 = some [false, true] := by decide

theorem test_state_encoding : TimingState.charGap.toBits = 0b100#3 ∧ TimingState.ofBits 0b101#3 = none := by decide

theorem test_tone_encoding : TonePort.toBits ⟨true, .dash⟩ = (1#1, 1#1) ∧ TonePort.toBits ⟨false, .dot⟩ = (0#1, 0#1) := by
  decide

/-! ### One step of each operation (95_test_vectors.md section 2) -/

/-- T5: a release on the tick of the would-be expiry is a dot. -/
theorem test_tick_release_beats_expiry :
    goes (exec (.tick 1#1) (at_ .dotOrDash 1 0x01 true .dot 0 0)) (sameRegs (at_ .symbolGap 255 0x02 false .dot 0 0)) =
      true := by decide

/-- T15: the push at the last cursor value. -/
theorem test_tick_push_wraps :
    goes (exec (.tick 1#1) (at_ .charGap 1 0x08 false .dot 255 250))
      (fun t => sameRegs t (at_ .idle 64 0x01 false .dot 0 250) && t.ring[15] == 0x08) = true := by decide

/-- F5: the read cursor wraps. -/
theorem test_pop_wraps : goes (exec .pop (withSlot 15 0x0F (at_ .idle 0 1 false .dot 0 255)))
    (fun t => t.resp == some 0x800F#16 && t.rd == 0 && t.ring[15] == 0x0F) = true := by decide

/-- F3: an empty buffer. -/
theorem test_pop_empty : goes (exec .pop (at_ .idle 0 1 false .dot 1 1))
    (fun t => t.resp == some 0x0000#16 && t.rd == 1) = true := by decide

/-- F11. -/
theorem test_rdwc : goes (exec .rdwc (at_ .idle 0 1 false .dot 255 0)) (fun t => t.resp == some 0x00FF#16) = true := by
  decide

/-- L8: five dashes are the digit. -/
theorem test_decode_zero : goes (exec (.decode 0x3F#12) State.reset) (fun t => t.resp == some 0x0030#16) = true := by decide

/-- Characters of 32 bits: the response is the same word. -/
theorem test_decode_wide_characters :
    goes (exec (.decode 0x1C#12) (withCh 32 State.reset)) (fun t => t.resp == some 0x005A#16) = true := by decide

/-- L3: no entry. -/
theorem test_decode_unknown : goes (exec (.decode 0x25#12) State.reset) (fun t => t.resp == some 0x002A#16) = true := by
  decide

/-- S1. -/
theorem test_reset : goes (exec .reset (at_ .symbolGap 200 0x05 false .dash 5 2)) (fun t => sameRegs t State.reset) =
    true := by decide

/-- S3: the mark stays. -/
theorem test_reset_keeps_mark : goes (exec .reset { State.reset with refused := true }) (fun t => t.refused) = true := by
  decide

/-- 60_exceptions.md R201. -/
theorem test_refused_word_sets_mark :
    goes (step (State.reset.withFetchWord 16 0x5000)) (fun t => t.refused && sameRegs t State.reset) = true := by decide

/-- Every row of the opcode table runs as the first word after reset. -/
theorem test_first_word_runs : ([0x1000, 0x1001, 0x2000, 0x3000, 0x4005, 0xF000].all fun w =>
    goes (step (State.reset.withFetchWord 16 w)) (fun t => t.pending == [] && !t.refused)) = true := by decide

/-! ### The consumer loop (95_test_vectors.md section 2.6) -/

/-- H1. -/
theorem test_consumer_none : goes (step (withPending [.consumerTurn] (looping .atPop State.reset)))
    (fun t => t.display == [] && t.consumer == .atPop) = true := by decide

/-- H3, its RDWC: the clear. -/
theorem test_consumer_clears : goes (step (withPending [.consumerTurn] (looping (.atRdwc 0x08) (at_ .idle 0 1 false .dot 16 16))))
    (fun t => t.resp == some 0x0010#16 && t.display == [.clear, .moveCursor 0 0]) = true := by decide

/-- H3, its DECODE. -/
theorem test_consumer_writes : goes (step (withPending [.consumerTurn] (looping (.atDecode 0x08) State.reset)))
    (fun t => t.display == [.writeChar 0x53] && t.consumer == .atPop) = true := by decide

/-- P1's RDWC, written out at a cursor that clears. -/
theorem test_written_rdwc_clears :
    goes (step (withPending [.word 0x3000#16] (writing (.atRdwc 0x08) (at_ .idle 0 1 false .dot 16 16))))
      (fun t => t.display == [.clear, .moveCursor 0 0] && t.consumer == .atDecode 0x08) = true := by decide

/-- P1's DECODE, written out; and a DECODE of no popped code, which makes no display call. -/
theorem test_written_decode :
    goes (step (withPending [.word 0x4002#16] (writing (.atDecode 0x02) (at_ .idle 64 1 false .dot 1 1))))
      (fun t => t.resp == some 0x0045#16 && t.display == [.writeChar 0x45] && t.consumer == .atPop) = true ∧
    goes (step (withPending [.word 0x4005#16] State.reset))
      (fun t => t.resp == some 0x0041#16 && t.display == []) = true := by decide

/-! ### The observation (44_host_consumer.md R175) -/

/-- T12, as it is observed: the block state, no response, one tone port value, no display call. -/
theorem test_observe : goes (exec (.tick 1#1) (at_ .charGap 1 2 false .dot 0 0)) (fun t => observe t ==
    ⟨⟨.idle, 64, 1, false, .dot, 1, 0, (Vector.replicate 16 0).set 0 2⟩, [], [⟨false, .dot⟩], []⟩) = true := by decide

/-! ### A symbol that has wrapped (41_timing_fsm.md R102, 42_decode_lut.md R141; log 26) -/

/-- ...---... with W_PC = 8 leaves 0x38, which is the row of '7'. -/
theorem test_wrapped_symbol :
    [false, false, false, true, true, true, false, false, false].foldl
        (fun a p => if p then dashAppend 8 a else dotAppend 8 a) 1 = 0x38 ∧ lutRead 8 0x38 = 0x37 := by decide

/-! ### Stimulus programs (30_encoding.md R84, R85) -/

theorem test_assemble : (assemble 8 "reset ; start\nPRESS 2\nRelease 1\nNOP\nDECODE 0x05\nDECODE 26\npop".toList).toOption =
    some [0xF000#16, 0x1000#16, 0x1000#16, 0x1001#16, 0x4005#16, 0x401A#16, 0x2000#16] := by decide

theorem test_assemble_refuses : (assemble 8 "TICK 2".toList).toOption = none ∧
    (assemble 8 "DECODE 256".toList).toOption = none ∧ (assemble 8 "PRESS 0".toList).toOption = none ∧
    (assemble 8 "JUMP".toList).toOption = none := by decide

/-! ### Witnesses: encoding and the step -/

theorem witness_DecodeOfEncodeIsTheInstruction : Instr.wellFormed 8 (.decode 0xFF#12) = true ∧
    Instr.wellFormed 8 (.tick 0#1) = true ∧ Instr.wellFormed 12 (.decode 0xFFF#12) = true := by decide

theorem witness_StepRunsTheDecodedInstruction :
    let s := withPending [.word 0x2000#16] State.reset
    let r := withPending [.word 0x1000#16] (looping .atPop State.reset)
    (configLegal s.cfg = true ∧ s.pending = [.word 0x2000#16] ∧ decodeWord s.cfg.wPc 0x2000#16 = .ok .pop ∧
      s.looping = false) ∧
    (configLegal r.cfg = true ∧ r.pending = [.word 0x1000#16] ∧ decodeWord r.cfg.wPc 0x1000#16 = .ok (.tick 0#1) ∧
      r.looping = true ∧ Instr.tick 0#1 ≠ .pop ∧ Instr.tick 0#1 ≠ .rdwc) := by decide

theorem witness_PlacedWordRunsFirst :
    let s := looping .atPop State.reset
    configLegal s.cfg = true ∧ 0xF000 < 2 ^ 16 ∧ decodeWord s.cfg.wPc (BitVec.ofNat 16 0xF000) = .ok .reset ∧
      decodeWord s.cfg.wPc (BitVec.ofNat 16 0x2000) = .ok .pop ∧
      decodeWord s.cfg.wPc (BitVec.ofNat 16 0x3000) = .ok .rdwc ∧ s.looping = true ∧ State.reset.looping = false ∧
      Instr.reset ≠ .pop ∧ Instr.reset ≠ .rdwc := by decide

theorem witness_RefusedWordOnlySetsTheMark :
    let s := withPending [.word 0x0FFF#16, .word 0x2000#16] State.reset
    configLegal s.cfg = true ∧ s.pending = .word 0x0FFF#16 :: [.word 0x2000#16] ∧
      decodeWord s.cfg.wPc 0x0FFF#16 = .error (.reservedOp 0#4) := by decide

theorem witness_RefusedMarkIsSticky :
    completes (exec .reset { State.reset with refused := true }) ∧
      completes (step (withPending [.word 0xFFFF#16] State.reset)) ∧
      completes (step (withPending [.word 0xF000#16] { State.reset with refused := true })) := by decide

theorem witness_IdleStepChangesNothing : configLegal State.reset.cfg = true ∧ State.reset.pending = [] := by decide

theorem witness_SecondConsumerIsRefused :
    let s := withPending [.word 0x3000#16] (looping (.atRdwc 2) State.reset)
    configLegal s.cfg = true ∧ s.pending = .word 0x3000#16 :: [] ∧ decodeWord s.cfg.wPc 0x3000#16 = .ok .rdwc ∧
      s.looping = true ∧ refusal (step s) = some .secondConsumer := by decide

theorem witness_ThresholdOutOfRangeIsRefused :
    refusal (step { State.reset with cfg := { Config.default with tShort := 0 } }) = some .illegalConfiguration ∧
      refusal (step { State.reset with cfg := { Config.default with tGrace := 256 } }) = some .illegalConfiguration ∧
      (∀ t ∈ [1, 255, 1, 255, 1], 1 ≤ t ∧ t ≤ 255) ∧
      completes (step { State.reset with cfg :=
        { Config.default with tShort := 1, tLong := 255, tDashRearm := 1, tCharGap := 255, tGrace := 1 } }) := by decide

theorem witness_StepStopsOnlyOnABrokenHostDuty : configLegal State.reset.cfg = true ∧
    (∀ rest, (withPending [.word 0x2000#16] State.reset).pending = .consumerTurn :: rest →
      (withPending [.word 0x2000#16] State.reset).looping = true) ∧
    (∀ w rest, (withPending [.word 0x2000#16] State.reset).pending = .word w :: rest →
      (withPending [.word 0x2000#16] State.reset).looping = true →
        decodeWord 8 w ≠ .ok .pop ∧ decodeWord 8 w ≠ .ok .rdwc) :=
  ⟨by decide, fun _ h => by simp [withPending] at h, fun _ _ _ h => absurd h (by decide)⟩

theorem witness_ConfigurationNeverChanges : completes (step (withPending [.word 0x1000#16] State.reset)) := by decide

theorem witness_ResetOperationLeavesTheRest : completes (exec .reset State.reset) := by decide

theorem witness_HostMovesDoOnlyWhatTheySay :
    configLegal State.reset.cfg = true ∧ (withPending [.displayInit] State.reset).pending = .displayInit :: [] ∧
      (withPending [.consumerStart] State.reset).pending = .consumerStart :: [] ∧
      (withPending [.consumerTurn] State.reset).pending = .consumerTurn :: [] ∧
      (withPending [.consumerTurn] State.reset).looping = false := by decide

/-! ### Witnesses: the invariant -/

theorem inv_reset : Inv State.reset := by constructor <;> decide

/-- A dot being keyed, at the first and the last value of its countdown. -/
theorem inv_pulse : Inv (at_ .dotOrDash 128 1 true .dot 0 0) ∧ Inv (at_ .dotOrDash 1 1 true .dot 0 0) := by
  constructor <;> constructor <;> decide

theorem inv_dash : Inv (at_ .dashExt 240 3 true .dash 0 0) ∧ Inv (at_ .dashExt 1 3 true .dash 0 0) := by
  constructor <;> constructor <;> decide

theorem inv_symbolGap : Inv (at_ .symbolGap 255 2 false .dot 0 0) ∧ Inv (at_ .symbolGap 1 2 false .dot 0 0) := by
  constructor <;> constructor <;> decide

theorem inv_charGap : Inv (at_ .charGap 128 2 false .dot 0 0) ∧ Inv (at_ .charGap 1 2 false .dot 255 250) := by
  constructor <;> constructor <;> decide

theorem inv_idle : Inv (at_ .idle 64 1 false .dash 1 0) ∧ Inv (combined (at_ .idle 0 2 false .dot 1 0)) := by
  constructor <;> constructor <;> decide

/-- The same states with a word to run: the premises of EveryStepKeepsTheInvariant. -/
theorem witness_EveryStepKeepsTheInvariant :
    Inv (withPending [.word 0x1001#16] (at_ .charGap 1 2 false .dot 255 250)) ∧
      completes (step (withPending [.word 0x1001#16] (at_ .charGap 1 2 false .dot 255 250))) := by
  refine ⟨?_, by decide⟩
  constructor <;> decide

theorem witness_PowerCycleEstablishesTheInvariant : configLegal (at_ .dashExt 0 0 false .dot 7 9).cfg = true := by decide

/-! ### Witnesses: TICK -/

theorem witness_TickInIdle :
    ((at_ .idle 1 1 false .dot 0 0).state = .idle ∧ 1 ≤ (at_ .idle 1 1 false .dot 0 0).cd ∧
      (at_ .idle 1 1 false .dot 0 0).cd < 2 ^ 8) ∧
    ((at_ .idle 255 1 false .dot 0 0).cd < 2 ^ 8) ∧
    ((at_ .idle 0 1 false .dot 0 0).cd = 0 ∧ (at_ .idle 0 1 false .dot 0 0).acc = 1) ∧
    ((combined (at_ .idle 0 2 false .dot 0 0)).cd = 0 ∧ (combined (at_ .idle 0 2 false .dot 0 0)).acc ≠ 1) := by decide

theorem witness_TickInDotOrDash :
    (at_ .dotOrDash 2 1 true .dot 0 0).state = .dotOrDash ∧ 2 ≤ (at_ .dotOrDash 2 1 true .dot 0 0).cd ∧
      (at_ .dotOrDash 2 1 true .dot 0 0).cd < 2 ^ 8 ∧ (at_ .dotOrDash 1 1 true .dot 0 0).cd = 1 ∧
      1 ≤ (at_ .dotOrDash 1 1 true .dot 0 0).cfg.wCd := by decide

theorem witness_TickInDashExt :
    (at_ .dashExt 2 3 true .dash 0 0).state = .dashExt ∧ 2 ≤ (at_ .dashExt 2 3 true .dash 0 0).cd ∧
      (at_ .dashExt 2 3 true .dash 0 0).cd < 2 ^ 8 ∧ (at_ .dashExt 1 3 true .dash 0 0).cd = 1 ∧
      1 ≤ (at_ .dashExt 1 3 true .dash 0 0).cfg.wCd := by decide

theorem witness_TickInSymbolGap :
    (at_ .symbolGap 2 2 false .dot 0 0).state = .symbolGap ∧ 2 ≤ (at_ .symbolGap 2 2 false .dot 0 0).cd ∧
      (at_ .symbolGap 2 2 false .dot 0 0).cd < 2 ^ 8 ∧ (at_ .symbolGap 1 2 false .dot 0 0).cd = 1 ∧
      1 ≤ (at_ .symbolGap 1 2 false .dot 0 0).cfg.wCd := by decide

theorem witness_TickInCharGap :
    (at_ .charGap 2 2 false .dot 0 0).state = .charGap ∧ 2 ≤ (at_ .charGap 2 2 false .dot 0 0).cd ∧
      (at_ .charGap 2 2 false .dot 0 0).cd < 2 ^ 8 ∧ (at_ .charGap 1 2 false .dot 0 0).cd = 1 ∧
      1 ≤ (at_ .charGap 1 2 false .dot 0 0).cfg.wCd ∧ (at_ .charGap 1 2 false .dot 0 0).cfg.gapForm = .separated := by
  decide

/-- 93_implementation_defined.md I3, with a completed code and with the bare sentinel. -/
theorem witness_TickInCharGapCombined :
    let s := combined (at_ .charGap 1 2 false .dot 0 0)
    s.state = .charGap ∧ s.cfg.gapForm = .combined ∧ s.cd = 1 ∧ 1 ≤ s.cfg.wCd ∧ s.acc ≠ 1 := by decide

theorem witness_TonePortFollowsTheTick : completes (exec (.tick 0#1) State.reset) ∧ completes (exec .pop State.reset) ∧
    Instr.pop ≠ .tick 0#1 ∧ Instr.pop ≠ .tick 1#1 ∧ Instr.pop ≠ .reset ∧ completes (exec .reset State.reset) := by decide

/-- With a state of the invariant whose tick pushes. -/
theorem witness_TickPushesAtMostOnce : Inv (at_ .charGap 1 2 false .dot 255 250) ∧
    (at_ .charGap 1 2 false .dot 255 250).cfg.gapForm = .separated ∧
    goes (exec (.tick 1#1) (at_ .charGap 1 2 false .dot 255 250)) (fun t => t.wr != 255) = true :=
  ⟨inv_charGap.2, by decide, by decide⟩

/-- From each of the three states, with holds of 1, T_SHORT and T_SHORT + 1 samples. -/
theorem witness_DotDashBoundary : Inv State.reset ∧ Inv (at_ .symbolGap 1 2 false .dot 0 0) ∧
    Inv (at_ .charGap 128 2 false .dot 0 0) ∧ State.reset.state = .idle ∧
    (at_ .symbolGap 1 2 false .dot 0 0).state = .symbolGap ∧ (at_ .charGap 128 2 false .dot 0 0).state = .charGap ∧
    (1 ≤ 128 ∧ 128 ≤ State.reset.cfg.tShort) ∧ State.reset.cfg.tShort + 1 ≤ 129 :=
  ⟨inv_reset, inv_symbolGap.2, inv_charGap.1, by decide⟩

/-- From each of the two states, at 1, 255, 256, 383 and 384 silent samples. -/
theorem witness_GapBoundaries :
    (Inv (at_ .dotOrDash 1 1 true .dot 0 0) ∧ Inv (at_ .dashExt 240 3 true .dash 0 0)) ∧
    let s := at_ .dotOrDash 1 1 true .dot 0 0
    s.cfg.gapForm = .separated ∧ s.state = .dotOrDash ∧ (at_ .dashExt 240 3 true .dash 0 0).state = .dashExt ∧
      (1 ≤ 255 ∧ 255 ≤ s.cfg.tLong) ∧ (s.cfg.tLong + 1 ≤ 256 ∧ 383 ≤ s.cfg.tLong + s.cfg.tCharGap) ∧
      s.cfg.tLong + s.cfg.tCharGap + 1 ≤ 384 :=
  ⟨⟨inv_pulse.2, inv_dash.1⟩, by decide⟩

theorem witness_HeldDashChangesOnlyTheCountdown :
    let s := at_ .dashExt 240 3 true .dash 0 0
    configLegal s.cfg = true ∧ s.state = .dashExt ∧ s.cd = s.cfg.tDashRearm ∧
      s.tonePort = ⟨s.toneEn, s.toneLvl⟩ := by decide

/-- Seven pulses with W_PC = 8, and nine; the least W_CH that holds `'*'`. -/
theorem witness_LongSymbolsKeepTheLastBits :
    6 ≤ 8 ∧ [true, false, true, false, true, false, true].length + 1 ≤ 8 ∧
      6 ≤ [true, false, true, false, true, false, true].length ∧ (6 ≤ 6 ∧ 0x2A < 2 ^ 6) ∧
      ([true] ++ List.replicate 8 false).length = 9 ∧ (List.replicate 8 false).length = 8 := by decide

theorem witness_PulseCodeRoundTrip : (1 : Nat) ≤ 1 := by decide

/-- A dot and a dash, their gaps at 1 and T_LONG. -/
theorem witness_KeyedCharacterIsPushedOnce : Inv State.reset ∧ State.reset.cfg.gapForm = .separated ∧
    State.reset.state = .idle ∧ (∀ p ∈ [(128, 1), (129, 255)], 1 ≤ p.1 ∧ 1 ≤ p.2 ∧ p.2 ≤ State.reset.cfg.tLong) ∧
    1 ≤ 1 :=
  ⟨inv_reset, by decide⟩

theorem witness_GracePeriodIsUnobservable : (at_ .idle 64 1 false .dash 1 0).state = .idle ∧
    (at_ .idle 64 1 false .dash 1 0).acc = 1 := by decide

/-! ### Witnesses: the table and the ring -/

/-- A row and a code without one; each with the least W_CH that holds its character, and with the width below. -/
theorem witness_DecodeAnswersTheTable :
    (∃ row ∈ tableRows, (0x05#12).toNat = row.1 ∧ 0x41 = row.2.2.toNat) ∧
    (∀ row ∈ tableRows, (0x40#12).toNat ≠ row.1) ∧
    0x41 < 2 ^ (withCh 7 State.reset).cfg.wCh ∧ 2 ^ (withCh 6 State.reset).cfg.wCh ≤ 0x41 ∧
    0x2A < 2 ^ (withCh 6 State.reset).cfg.wCh ∧ 2 ^ (withCh 5 State.reset).cfg.wCh ≤ 0x2A := by decide

/-- The largest cursor that fits, with W_CUR = 20; and the first one that does not, whose answer is that of
RdwcAnswersTheWriteCursor. -/
theorem witness_RdwcAnswersACursorThatFits : (withCur 20 (at_ .idle 0 1 false .dot 65535 0)).wr < 2 ^ 16 ∧
    goes (exec .rdwc (withCur 20 (at_ .idle 0 1 false .dot 65535 0))) (fun t => t.resp == some 0xFFFF#16) = true ∧
    goes (exec .rdwc (withCur 20 (at_ .idle 0 1 false .dot 65536 0))) (fun t => t.resp == some 0x0000#16) = true := by
  decide

theorem witness_PushWritesSlotThenCursor : 0xFF < 2 ^ State.reset.cfg.wPc := by decide

/-- Equal cursors, equal slots of different cursors, and different slots. -/
theorem witness_PopAnswersTheSlotAtRd : (at_ .idle 0 1 false .dot 7 7).rd = (at_ .idle 0 1 false .dot 7 7).wr ∧
    (at_ .idle 0 1 false .dot 16 0).rd ≠ (at_ .idle 0 1 false .dot 16 0).wr ∧
    (at_ .idle 0 1 false .dot 0 255).rd ≠ (at_ .idle 0 1 false .dot 0 255).wr := by decide

/-- Only codes that fit are pushed. -/
theorem pushes_fit (n : Nat) : ∀ v, RingOp.push v ∈ List.replicate n (RingOp.push 2) → v < 2 ^ 8 := by
  intro v h
  cases List.eq_of_mem_replicate h
  decide

/-- A pop that succeeds: one unread code, 16, and 17 of them. -/
theorem witness_PopReadsTheLatestCodeOfItsSlot : configLegal State.reset.cfg = true ∧ State.reset.wr = 0 ∧
    State.reset.rd = 0 ∧ (∀ v, RingOp.push v ∈ List.replicate 17 (RingOp.push 2) → v < 2 ^ State.reset.cfg.wPc) ∧
    ((ringHistory (List.replicate 1 (.push 2)) State.reset).now.rd ≠
      (ringHistory (List.replicate 1 (.push 2)) State.reset).now.wr) ∧
    ((ringHistory (List.replicate 16 (.push 2)) State.reset).now.rd ≠
      (ringHistory (List.replicate 16 (.push 2)) State.reset).now.wr) ∧
    ((ringHistory (List.replicate 17 (.push 2)) State.reset).now.rd ≠
      (ringHistory (List.replicate 17 (.push 2)) State.reset).now.wr) :=
  ⟨by decide, rfl, rfl, pushes_fit 17, by decide, by decide, by decide⟩

/-- With W_CUR = 5: 17 and 31 codes unread, and a full lap of 32. -/
theorem witness_LaggingConsumerSequence : configLegal (withCur 5 State.reset).cfg = true ∧
    (∀ v, RingOp.push v ∈ List.replicate 31 (RingOp.push 2) → v < 2 ^ (withCur 5 State.reset).cfg.wPc) ∧
    (ringHistory (List.replicate 17 (.push 2)) (withCur 5 State.reset)).pushed.length = 17 ∧
    (16 < 17 ∧ 31 < 2 ^ (withCur 5 State.reset).cfg.wCur) ∧
    (ringHistory (List.replicate 32 (.push 2)) (withCur 5 State.reset)).pushed.length %
      2 ^ (withCur 5 State.reset).cfg.wCur = 0 :=
  ⟨by decide, pushes_fit 31, by decide, by decide, by decide⟩

/-- Sixteen codes unread, with W_CUR = 5; and a pop that empties the buffer. -/
theorem witness_FifoWithoutOverflow : configLegal (withCur 5 State.reset).cfg = true ∧
    (∀ pre, pre <+: List.replicate 16 (RingOp.push 2) →
      (ringHistory pre (withCur 5 State.reset)).pushed.length -
        (ringHistory pre (withCur 5 State.reset)).popped.length ≤ 16) ∧
    5 ≤ (withCur 5 State.reset).cfg.wCur ∧
    ((ringHistory [.push 2, .pop] (withCur 5 State.reset)).now.rd =
      (ringHistory [.push 2, .pop] (withCur 5 State.reset)).now.wr) := by
  refine ⟨by decide, fun pre h => ?_, by decide, by decide⟩
  have all : ∀ pre ∈ (List.replicate 16 (RingOp.push 2)).inits, (ringHistory pre (withCur 5 State.reset)).pushed.length -
      (ringHistory pre (withCur 5 State.reset)).popped.length ≤ 16 := by decide
  exact all pre ((List.mem_inits _ _).2 h)

/-! ### Witnesses: sharing and the consumer -/

theorem witness_ConsumerOperationsCannotSeeHiddenRegisters :
    (Instr.pop = .pop) ∧ (Instr.rdwc = .rdwc) ∧ ∃ code, Instr.decode 5#12 = .decode code := ⟨rfl, rfl, _, rfl⟩

theorem witness_OnlyTickAndResetChangeTheTimingMachine :
    goes (step (withPending [.word 0x1000#16] State.reset)) (fun t => t.cd == 128) = true ∧
      goes (step (withPending [.word 0xF000#16] (at_ .idle 0 1 false .dot 3 0))) (fun t => t.wr == 0) = true := by decide

theorem witness_OnlyPopAndResetMoveTheReadCursor :
    goes (step (withPending [.word 0x2000#16] (at_ .idle 0 1 false .dot 1 0))) (fun t => t.rd == 1) = true ∧
      goes (step (withPending [.consumerTurn] (looping .atPop (at_ .idle 0 1 false .dot 1 0)))) (fun t => t.rd == 1) = true ∧
      goes (step (withPending [.word 0xF000#16] (at_ .idle 0 1 false .dot 1 1))) (fun t => t.rd == 0) = true := by decide

/-- An empty buffer; a code with a write cursor of 15 and of 16. -/
theorem witness_ConsumerIterationShowsOneCharacter :
    Inv (withPending [.consumerTurn] (looping .atPop State.reset)) ∧
    Inv (withPending [.consumerTurn, .consumerTurn, .consumerTurn] (looping .atPop (at_ .idle 0 1 false .dot 16 15))) ∧
    Inv (withPending [.consumerTurn, .consumerTurn, .consumerTurn] (looping .atPop (at_ .idle 0 1 false .dot 15 14))) := by
  refine ⟨?_, ?_, ?_⟩ <;> constructor <;> decide

/-- H4: the race, at the cursor that clears. -/
theorem witness_ScreenClearTestSeesTheLaterCursor :
    let s := withPending [.consumerTurn, .word 0x1001#16, .consumerTurn, .consumerTurn]
      (looping .atPop (withSlot 14 2 (at_ .charGap 1 8 false .dot 15 14)))
    Inv s ∧ s.looping = true ∧ s.consumer = .atPop ∧ s.rd ≠ s.wr ∧ s.state = .charGap ∧ s.cd = 1 ∧ s.cfg.gapForm = .separated ∧
      s.pending = .consumerTurn :: .word 0x1001#16 :: .consumerTurn :: .consumerTurn :: [] := by
  refine ⟨?_, by decide⟩
  constructor <;> decide

theorem witness_DisplayClearsEverySixteenthCode :
    let s := looping .atPop State.reset
    configLegal s.cfg = true ∧ s.wr = 0 ∧ s.rd = 0 ∧ s.looping = true ∧ s.consumer = .atPop ∧
      (∀ v ∈ List.replicate 16 2, v < 2 ^ s.cfg.wPc) := by decide

/-! ### Witnesses: written-out steps and the end of a run -/

/-- An empty buffer; a code with a write cursor of 15 and of 16; a TICK between two steps. -/
theorem witness_WrittenOutIterationShowsOneCharacter :
    Inv (withPending [.word 0x2000#16] State.reset) ∧
    Inv (withPending [.word 0x2000#16, .word 0x3000#16, .word 0x4008#16] (withSlot 15 8 (at_ .idle 0 1 false .dot 16 15))) ∧
    Inv (withPending [.word 0x2000#16, .word 0x3000#16, .word 0x4002#16] (withSlot 14 2 (at_ .idle 0 1 false .dot 15 14))) ∧
    (BitVec.ofNat 16 (0x4000 + slotAt (withSlot 15 8 State.reset).ring 15) = 0x4008#16 ∧
      (at_ .idle 0 1 false .dot 16 15).rd ≠ (at_ .idle 0 1 false .dot 16 15).wr) ∧
    goes (step (withPending [.word 0x2000#16] (at_ .idle 0 1 false .dot 1 0))) (fun t => t.consumer != .atPop) = true := by
  refine ⟨?_, ?_, ?_, by decide, by decide⟩ <;> constructor <;> decide

/-- A loop that runs; an RDWC at the top and at a DECODE; a DECODE of the popped code out of turn and of another code; a POP. -/
theorem witness_WordsOutOfTurnMakeNoDisplayCall :
    completes (step (withPending [.word 0x4002#16] (looping (.atDecode 2) State.reset))) ∧
    completes (step (withPending [.word 0x3000#16] State.reset)) ∧
    completes (step (withPending [.word 0x3000#16] (writing (.atDecode 2) State.reset))) ∧
    completes (step (withPending [.word 0x4002#16] (writing (.atRdwc 2) State.reset))) ∧
    completes (step (withPending [.word 0x4003#16] (writing (.atDecode 2) State.reset))) ∧
    (3#12 ≠ BitVec.ofNat 12 2) ∧ completes (step (withPending [.word 0x2000#16] (at_ .idle 0 1 false .dot 1 0))) := by decide

/-- At each of the three places, the last with the largest code. -/
theorem witness_ConsumerTurnIsTheWrittenOutWord :
    completes (step (withPending [.consumerTurn] (looping .atPop State.reset))) ∧
    completes (step (withPending [.consumerTurn] (looping (.atRdwc 2) State.reset))) ∧
    completes (step (withPending [.consumerTurn] (looping (.atDecode 255) State.reset))) ∧
    255 < 2 ^ State.reset.cfg.wPc := by decide

theorem witness_ProgramRunsToItsEnd : configLegal State.reset.cfg = true ∧ State.reset.looping = false ∧
    goes (endOfRun [0x1000#16, 0x2000#16, 0x5000#16] State.reset) (fun t => t.refused && t.tones.length == 1 &&
      t.responses.length == 1) = true := by decide

end Sys2Proof.Tests
end

section
/-! PROOFS. The refused mark (10_state.md R34): what each operation and each step does to it. -/

namespace Sys2Proof.Machine

/-! ### No transition of TICK touches the mark -/

@[simp] theorem tickIdle_refused (p : Bool) (s : State) : (tickIdle p s).refused = s.refused := by
  unfold tickIdle
  split_ifs <;> simp

@[simp] theorem tickDotOrDash_refused (p : Bool) (s : State) : (tickDotOrDash p s).refused = s.refused := by
  simp only [tickDotOrDash]
  split_ifs <;> rfl

@[simp] theorem tickDashExt_refused (p : Bool) (s : State) : (tickDashExt p s).refused = s.refused := by
  simp only [tickDashExt]
  split_ifs <;> rfl

@[simp] theorem tickSymbolGap_refused (p : Bool) (s : State) : (tickSymbolGap p s).refused = s.refused := by
  simp only [tickSymbolGap]
  split_ifs <;> simp

@[simp] theorem charGapExpiry_refused (s : State) : (charGapExpiry s).refused = s.refused := by
  unfold charGapExpiry
  split <;> simp

@[simp] theorem tickCharGap_refused (p : Bool) (s : State) : (tickCharGap p s).refused = s.refused := by
  simp only [tickCharGap]
  split_ifs <;> simp

@[simp] theorem tickTransition_refused (p : Bool) (s : State) : (tickTransition p s).refused = s.refused := by
  unfold tickTransition
  split <;> simp

/-! ### Operations and steps -/

/-- No operation writes the mark; RESET keeps it too (10_state.md R34). -/
theorem exec_refused {i : Instr} {s t : State} (h : exec i s = .next t) : t.refused = s.refused := by
  cases i with
  | tick k =>
    rw [exec_tick] at h
    cases h
    simp
  | pop =>
    by_cases he : s.rd = s.wr
    · rw [exec_pop_empty he] at h
      cases h
      rfl
    · rw [exec_pop_some he] at h
      cases h
      rfl
  | rdwc => cases h; rfl
  | decode c => cases h; rfl
  | reset => cases h; rfl

/-- The next item is a command word the decoder rejects (60_exceptions.md R201). -/
def NextWordRejected (s : State) : Prop :=
  ∃ w rest r, s.pending = .word w :: rest ∧ decodeWord s.cfg.wPc w = .error r

/-- A rejected word sets the mark; every other step keeps it. -/
theorem step_refused_cases {s t : State} (h : step s = .next t) :
    (NextWordRejected s ∧ t.refused = true) ∨ (¬ NextWordRejected s ∧ t.refused = s.refused) := by
  obtain ⟨-, ⟨hp, rfl⟩ | ⟨rest, hp, rfl⟩ | ⟨rest, hp, rfl⟩ | ⟨w, rest, r, hp, hr, rfl⟩ |
    ⟨w, rest, i, u, hp, hd, hu, ht⟩ | ⟨rest, u, hp, -, hu, rfl⟩⟩ := step_cases h
  · exact .inr ⟨by simp [NextWordRejected, hp], rfl⟩
  · exact .inr ⟨by simp [NextWordRejected, hp], rfl⟩
  · exact .inr ⟨by simp [NextWordRejected, hp], rfl⟩
  · exact .inl ⟨⟨w, rest, r, hp, hr⟩, rfl⟩
  · have hmark := exec_refused hu
    refine .inr ⟨by simp [NextWordRejected, hp, hd], ?_⟩
    obtain ⟨-, rfl⟩ | ⟨-, rfl⟩ := ht
    · exact hmark
    · rw [renderStep_refused, hmark]
  · have hmark := exec_refused hu
    exact .inr ⟨by simp [NextWordRejected, hp], by rw [renderStep_refused, hmark]⟩

/-- The mark after a step: it stood before, or the step's word was rejected (10_state.md R34). -/
theorem step_refused_iff {s t : State} (h : step s = .next t) :
    t.refused = true ↔ s.refused = true ∨ NextWordRejected s := by
  obtain ⟨hw, ht⟩ | ⟨hw, ht⟩ := step_refused_cases h
  · simp [hw, ht]
  · simp [hw, ht]

/-- Settles O7: the mark at reset by evaluation, operation by operation for `exec`, and by the cases of a step. -/
theorem refusedMarkIsSticky : Obligations.RefusedMarkIsSticky := by
  unfold Obligations.RefusedMarkIsSticky
  exact ⟨rfl, fun _ _ _ => exec_refused, fun _ _ => step_refused_iff⟩

end Sys2Proof.Machine
end

section
/-! PROOFS. The decoder (30_encoding.md R81) reads exactly the words that the encoder writes for well-formed instructions
(R70, R78). -/

namespace Sys2Proof

/-! ### A word as its two fields -/

/-- The fields of a word put together are the word (30_encoding.md R70). -/
theorem opField_append_operandField (w : Word) : opField w ++ operandField w = w :=
  (BitVec.extractLsb'_append_extractLsb'_eq_extractLsb' rfl).trans BitVec.extractLsb'_eq_self

@[simp] theorem opField_append (op : BitVec 4) (x : BitVec 12) : opField (op ++ x) = op :=
  BitVec.extractLsb'_append_eq_left

@[simp] theorem operandField_append (op : BitVec 4) (x : BitVec 12) : operandField (op ++ x) = x :=
  BitVec.extractLsb'_append_eq_right

/-- TICK's operand is the pin level below 11 reserved bits (30_encoding.md R75). -/
theorem zero_append_pin {x : BitVec 12} (h : x.extractLsb' 1 11 = 0#11) : 0#11 ++ x.extractLsb' 0 1 = x := by
  rw [← h]
  exact (BitVec.extractLsb'_append_extractLsb'_eq_extractLsb' rfl).trans BitVec.extractLsb'_eq_self

/-! ### Decoder and encoder are inverse to each other -/

/-- The word of a well-formed instruction decodes to it. -/
theorem decodeWord_encode {wPc : Nat} {i : Instr} (h : i.wellFormed wPc = true) :
    decodeWord wPc (encode i) = .ok i := by
  cases i with
  | tick k =>
    have hzero : BitVec.extractLsb' 1 11 (0#11 ++ k) = 0#11 := BitVec.extractLsb'_append_eq_left
    have hpin : BitVec.extractLsb' 0 1 (0#11 ++ k) = k := BitVec.extractLsb'_append_eq_right
    simp [decodeWord, encode, hzero, hpin]
  | pop => rfl
  | rdwc => rfl
  | decode c =>
    have hc : c.toNat < 2 ^ wPc := of_decide_eq_true h
    simp [decodeWord, encode, hc]
  | reset => rfl

/-- A word that decodes is the one its instruction encodes to, and the instruction is well-formed. -/
theorem encode_of_decodeWord {wPc : Nat} {w : Word} {i : Instr} (h : decodeWord wPc w = .ok i) :
    w = encode i ∧ i.wellFormed wPc = true := by
  rw [← opField_append_operandField w] at h ⊢
  generalize opField w = op at h ⊢
  generalize operandField w = x at h ⊢
  simp only [decodeWord, opField_append, operandField_append] at h
  split_ifs at h with hop hx hop hx hop hx hop hx hop hx <;> cases h <;> subst hop
  · exact ⟨by rw [encode, zero_append_pin hx], rfl⟩
  · exact ⟨by rw [hx, encode], rfl⟩
  · exact ⟨by rw [hx, encode], rfl⟩
  · exact ⟨rfl, decide_eq_true hx⟩
  · exact ⟨by rw [hx, encode], rfl⟩

/-- What the decoder reads, said by the encoder. -/
theorem decodeWord_eq_ok_iff {wPc : Nat} {w : Word} {i : Instr} :
    decodeWord wPc w = .ok i ↔ w = encode i ∧ i.wellFormed wPc = true :=
  ⟨encode_of_decodeWord, fun ⟨hw, hi⟩ => hw ▸ decodeWord_encode hi⟩

/-- What the decoder refuses: the words it reads as no instruction. -/
theorem decodeWord_eq_error_iff {wPc : Nat} {w : Word} :
    (∃ r, decodeWord wPc w = .error r) ↔ ¬ ∃ i, decodeWord wPc w = .ok i := by
  cases decodeWord wPc w <;> simp

/-! ### The words of the instructions as numbers -/

theorem encode_tick_zero : encode (.tick 0#1) = 0x1000#16 := rfl

theorem encode_tick_one : encode (.tick 1#1) = 0x1001#16 := rfl

theorem encode_pop : encode .pop = 0x2000#16 := rfl

theorem encode_rdwc : encode .rdwc = 0x3000#16 := rfl

theorem encode_reset : encode .reset = 0xF000#16 := rfl

/-- DECODE's word is its operation field and the code below it (30_encoding.md R78). -/
theorem encode_decode_toNat (c : BitVec 12) : (encode (.decode c)).toNat = 0x4000 + c.toNat := by
  rw [encode, BitVec.toNat_append, ← Nat.shiftLeft_add_eq_or_of_lt c.isLt]
  rfl

theorem eq_encode_decode_iff {w : Word} {c : BitVec 12} :
    w = encode (.decode c) ↔ w.toNat = 0x4000 + c.toNat := by
  rw [← BitVec.toNat_inj, encode_decode_toNat]

/-! ### The table, operation by operation -/

theorem decodeWord_eq_tick_zero_iff {wPc : Nat} {w : Word} :
    decodeWord wPc w = .ok (.tick 0#1) ↔ w = 0x1000#16 := by
  simp [decodeWord_eq_ok_iff, encode_tick_zero, Instr.wellFormed]

theorem decodeWord_eq_tick_one_iff {wPc : Nat} {w : Word} :
    decodeWord wPc w = .ok (.tick 1#1) ↔ w = 0x1001#16 := by
  simp [decodeWord_eq_ok_iff, encode_tick_one, Instr.wellFormed]

theorem decodeWord_eq_pop_iff {wPc : Nat} {w : Word} : decodeWord wPc w = .ok .pop ↔ w = 0x2000#16 := by
  simp [decodeWord_eq_ok_iff, encode_pop, Instr.wellFormed]

theorem decodeWord_eq_rdwc_iff {wPc : Nat} {w : Word} : decodeWord wPc w = .ok .rdwc ↔ w = 0x3000#16 := by
  simp [decodeWord_eq_ok_iff, encode_rdwc, Instr.wellFormed]

theorem decodeWord_eq_decode_iff {wPc : Nat} {w : Word} {c : BitVec 12} :
    decodeWord wPc w = .ok (.decode c) ↔ w.toNat = 0x4000 + c.toNat ∧ c.toNat < 2 ^ wPc := by
  rw [decodeWord_eq_ok_iff, eq_encode_decode_iff, Instr.wellFormed, decide_eq_true_eq]

theorem decodeWord_eq_reset_iff {wPc : Nat} {w : Word} : decodeWord wPc w = .ok .reset ↔ w = 0xF000#16 := by
  simp [decodeWord_eq_ok_iff, encode_reset, Instr.wellFormed]

/-- The words of DECODE with a code of `wPc` bits are the numbers from 0x4000 up to the code's width, within the operation's
4096 words. -/
theorem exists_decodeWord_eq_decode_iff {wPc : Nat} {w : Word} :
    (∃ c, decodeWord wPc w = .ok (.decode c)) ↔
      0x4000 ≤ w.toNat ∧ w.toNat < 0x5000 ∧ w.toNat - 0x4000 < 2 ^ wPc := by
  simp only [decodeWord_eq_decode_iff]
  constructor
  · rintro ⟨c, hw, hc⟩
    have hlt := c.isLt
    exact ⟨by omega, by omega, by rwa [hw, Nat.add_sub_cancel_left]⟩
  · rintro ⟨hlo, hhi, hc⟩
    have hn : (BitVec.ofNat 12 (w.toNat - 0x4000)).toNat = w.toNat - 0x4000 := by
      rw [BitVec.toNat_ofNat, Nat.mod_eq_of_lt (by omega)]
    exact ⟨BitVec.ofNat 12 (w.toNat - 0x4000), by omega, by rwa [hn]⟩

/-- The words the decoder reads, whichever operation it is. -/
theorem exists_decodeWord_eq_ok_iff {wPc : Nat} {w : Word} :
    (∃ i, decodeWord wPc w = .ok i) ↔
      w = 0x1000#16 ∨ w = 0x1001#16 ∨ w = 0x2000#16 ∨ w = 0x3000#16 ∨ w = 0xF000#16 ∨
        (0x4000 ≤ w.toNat ∧ w.toNat < 0x5000 ∧ w.toNat - 0x4000 < 2 ^ wPc) := by
  rw [← decodeWord_eq_tick_zero_iff (wPc := wPc), ← decodeWord_eq_tick_one_iff (wPc := wPc),
    ← decodeWord_eq_pop_iff (wPc := wPc), ← decodeWord_eq_rdwc_iff (wPc := wPc),
    ← decodeWord_eq_reset_iff (wPc := wPc), ← exists_decodeWord_eq_decode_iff]
  constructor
  · rintro ⟨i, h⟩
    cases i with
    | tick k =>
      obtain rfl | rfl := BitVec.eq_zero_or_eq_one k
      · exact .inl h
      · exact .inr (.inl h)
    | pop => exact .inr (.inr (.inl h))
    | rdwc => exact .inr (.inr (.inr (.inl h)))
    | decode c => exact .inr (.inr (.inr (.inr (.inr ⟨c, h⟩))))
    | reset => exact .inr (.inr (.inr (.inr (.inl h))))
  · rintro (h | h | h | h | h | ⟨c, h⟩) <;> exact ⟨_, h⟩

end Sys2Proof

namespace Sys2Proof.Machine

/-- Settles O3: the table operation by operation, since the decoder reads what the encoder writes; it refuses the rest. -/
theorem decoderFollowsTheTable : Obligations.DecoderFollowsTheTable := by
  unfold Obligations.DecoderFollowsTheTable
  intro wPc w
  exact ⟨decodeWord_eq_tick_zero_iff, decodeWord_eq_tick_one_iff, decodeWord_eq_pop_iff, decodeWord_eq_rdwc_iff,
    fun _ => decodeWord_eq_decode_iff, decodeWord_eq_reset_iff,
    decodeWord_eq_error_iff.trans (not_congr exists_decodeWord_eq_ok_iff)⟩

end Sys2Proof.Machine
end

section
/-! PROOFS. One TICK (41_timing_fsm.md R104 to R108), said once for each state and sample, as the whole next state, and
what no TICK touches (R111). -/

namespace Sys2Proof.Machine

/-- A TICK is its transition, shown at the tone port (41_timing_fsm.md R100, R109). -/
theorem exec_tick_eq_tickShown (k : BitVec 1) (s : State) :
    exec (.tick k) s = .next (tickShown (tickTransition (pressed k) s)) := rfl

theorem pressed_eq_false_iff {k : BitVec 1} : pressed k = false ↔ k = 1#1 := by
  revert k
  decide

/-- The last step of a countdown (41_timing_fsm.md R101). -/
theorem decrement_one {w : Nat} (hw : 1 ≤ w) : decrement w 1 = 0 :=
  decrement_of_pos le_rfl (Nat.one_lt_two_pow (by omega))

/-- A push changes the slot of the write cursor only (43_ring_buffer.md R150). -/
theorem ringHas_push (v : Nat) (s : State) : RingHas s.ring (push v s).ring s.wr (v % 2 ^ s.cfg.wPc) :=
  push_slot v s

/-! ### Counting down -/

/-- The sample that lets a timed state's countdown run: a hold in a pulse, silence in a gap (41_timing_fsm.md R101). -/
inductive CountsDown : BitVec 1 → TimingState → Prop
  | dotOrDash : CountsDown 0#1 .dotOrDash
  | dashExt : CountsDown 0#1 .dashExt
  | symbolGap : CountsDown 1#1 .symbolGap
  | charGap : CountsDown 1#1 .charGap

/-- Before its expiry a countdown changes nothing but itself. -/
theorem exec_tick_countdown {k : BitVec 1} {st : TimingState} {s : State} (h : CountsDown k st) (hs : s.state = st)
    (hcd : 2 ≤ s.cd) (hlt : s.cd < 2 ^ s.cfg.wCd) :
    exec (.tick k) s = .next (tickShown { s with cd := s.cd - 1 }) := by
  have hdec : decrement s.cfg.wCd s.cd = s.cd - 1 := decrement_of_pos (by omega) hlt
  have hne : s.cd - 1 ≠ 0 := by omega
  cases h with
  | dotOrDash => simp [exec_tick_eq_tickShown, tickTransition, hs, tickDotOrDash, hdec, hne]
  | dashExt => simp [exec_tick_eq_tickShown, tickTransition, hs, tickDashExt, hdec, hne]
  | symbolGap => simp [exec_tick_eq_tickShown, tickTransition, hs, tickSymbolGap, hdec, hne]
  | charGap => simp [exec_tick_eq_tickShown, tickTransition, hs, tickCharGap, hdec, hne]

/-! ### Presses outside a pulse -/

/-- A press in IDLE or CHAR_GAP starts a new character (41_timing_fsm.md R104, R108). -/
theorem exec_press_new {s : State} (hs : s.state = .idle ∨ s.state = .charGap) :
    exec (.tick 0#1) s = .next (tickShown (startPulse true s)) := by
  obtain hs | hs := hs
  · simp [exec_tick_eq_tickShown, tickTransition, hs, tickIdle]
  · simp [exec_tick_eq_tickShown, tickTransition, hs, tickCharGap]

/-- A press in SYMBOL_GAP continues the symbol (41_timing_fsm.md R107). -/
theorem exec_press_symbolGap {s : State} (hs : s.state = .symbolGap) :
    exec (.tick 0#1) s = .next (tickShown (startPulse false s)) := by
  simp [exec_tick_eq_tickShown, tickTransition, hs, tickSymbolGap]

/-! ### The end of a pulse and of each countdown -/

/-- The dash of R105, classified while the key is held. -/
def dashClassified (s : State) : State :=
  { s with
    acc := (2 * s.acc + 1) % 2 ^ s.cfg.wPc
    toneLvl := .dash
    cd := s.cfg.tDashRearm
    state := .dashExt }

/-- The release of a pulse: SYMBOL_GAP with the symbol `a` so far (41_timing_fsm.md R105, R106). -/
def gapEntered (a : Nat) (s : State) : State :=
  { s with acc := a, toneEn := false, cd := s.cfg.tLong, state := .symbolGap }

/-- The symbol is complete (41_timing_fsm.md R107). -/
def symbolCompleted (s : State) : State := { s with cd := s.cfg.tCharGap, state := .charGap }

/-- The character is pushed (41_timing_fsm.md R108). -/
def characterPushed (s : State) : State := { push s.acc s with acc := 1, cd := s.cfg.tGrace, state := .idle }

/-- A release in DOT_OR_DASH is a dot (41_timing_fsm.md R105). -/
theorem exec_release_dotOrDash {s : State} (hs : s.state = .dotOrDash) :
    exec (.tick 1#1) s = .next (tickShown (gapEntered ((2 * s.acc) % 2 ^ s.cfg.wPc) s)) := by
  simp [gapEntered, exec_tick_eq_tickShown, tickTransition, hs, tickDotOrDash, dotAppend_eq]

/-- The expiry in DOT_OR_DASH is a dash (41_timing_fsm.md R105). -/
theorem exec_expiry_dotOrDash {s : State} (hs : s.state = .dotOrDash) (hcd : s.cd = 1) (hw : 1 ≤ s.cfg.wCd) :
    exec (.tick 0#1) s = .next (tickShown (dashClassified s)) := by
  simp [dashClassified, exec_tick_eq_tickShown, tickTransition, hs, tickDotOrDash, dashAppend_eq, hcd, decrement_one hw]

/-- A release in DASH_EXT appends nothing (41_timing_fsm.md R106). -/
theorem exec_release_dashExt {s : State} (hs : s.state = .dashExt) :
    exec (.tick 1#1) s = .next (tickShown (gapEntered s.acc s)) := by
  simp [gapEntered, exec_tick_eq_tickShown, tickTransition, hs, tickDashExt]

/-- The expiry in DASH_EXT re-arms (41_timing_fsm.md R106). -/
theorem exec_expiry_dashExt {s : State} (hs : s.state = .dashExt) (hcd : s.cd = 1) (hw : 1 ≤ s.cfg.wCd) :
    exec (.tick 0#1) s = .next (tickShown { s with cd := s.cfg.tDashRearm }) := by
  simp [exec_tick_eq_tickShown, tickTransition, hs, tickDashExt, hcd, decrement_one hw]

/-- The expiry in SYMBOL_GAP completes the symbol (41_timing_fsm.md R107). -/
theorem exec_expiry_symbolGap {s : State} (hs : s.state = .symbolGap) (hcd : s.cd = 1) (hw : 1 ≤ s.cfg.wCd) :
    exec (.tick 1#1) s = .next (tickShown (symbolCompleted s)) := by
  simp [symbolCompleted, exec_tick_eq_tickShown, tickTransition, hs, tickSymbolGap, hcd, decrement_one hw]

/-- The expiry in CHAR_GAP, separated form: the code is pushed (41_timing_fsm.md R108). -/
theorem exec_expiry_charGap {s : State} (hs : s.state = .charGap) (hcd : s.cd = 1) (hw : 1 ≤ s.cfg.wCd)
    (hf : s.cfg.gapForm = .separated) :
    exec (.tick 1#1) s = .next (tickShown (characterPushed s)) := by
  simp [characterPushed, exec_tick_eq_tickShown, tickTransition, hs, tickCharGap, charGapExpiry, hcd, hf,
    decrement_one hw]

/-! ### Released in IDLE -/

/-- The grace period runs down (41_timing_fsm.md R104). -/
theorem exec_release_idle_counting {s : State} (hs : s.state = .idle) (hcd : 1 ≤ s.cd) (hlt : s.cd < 2 ^ s.cfg.wCd) :
    exec (.tick 1#1) s = .next (tickShown { s with cd := s.cd - 1 }) := by
  have hne : s.cd ≠ 0 := by omega
  simp [exec_tick_eq_tickShown, tickTransition, hs, tickIdle, hne, decrement_of_pos hcd hlt]

/-- After the grace period, with nothing pending, nothing changes (41_timing_fsm.md R104). -/
theorem exec_release_idle_settled {s : State} (hs : s.state = .idle) (hcd : s.cd = 0) (hacc : s.acc = 1) :
    exec (.tick 1#1) s = .next (tickShown s) := by
  simp [exec_tick_eq_tickShown, tickTransition, hs, tickIdle, hcd, hacc]

/-- A pending character is pushed (41_timing_fsm.md R104). -/
theorem exec_release_idle_pending {s : State} (hs : s.state = .idle) (hcd : s.cd = 0) (hacc : s.acc ≠ 1) :
    exec (.tick 1#1) s = .next (tickShown { push s.acc s with acc := 1, cd := s.cfg.tGrace }) := by
  simp [exec_tick_eq_tickShown, tickTransition, hs, tickIdle, hcd, hacc]

/-! ### What no transition touches -/

/-- A transition writes only the timing machine's registers, the write cursor and the ring. -/
theorem tickTransition_frame (p : Bool) (s : State) :
    tickTransition p s =
      { s with
        state := (tickTransition p s).state
        cd := (tickTransition p s).cd
        acc := (tickTransition p s).acc
        toneEn := (tickTransition p s).toneEn
        toneLvl := (tickTransition p s).toneLvl
        wr := (tickTransition p s).wr
        ring := (tickTransition p s).ring } := by
  unfold tickTransition
  split
  · unfold tickIdle
    split_ifs <;> rfl
  · simp only [tickDotOrDash]
    split_ifs <;> rfl
  · simp only [tickDashExt]
    split_ifs <;> rfl
  · simp only [tickSymbolGap]
    split_ifs <;> rfl
  · simp only [tickCharGap, charGapExpiry]
    split_ifs
    · rfl
    · split <;> rfl
    · rfl

/-- Off the two expiries that push, a transition leaves the write cursor and the ring (41_timing_fsm.md R111). -/
theorem tickTransition_keeps_ring {p : Bool} {s : State} (hidle : s.state = .idle → s.cd ≠ 0 ∨ s.acc = 1)
    (hgap : s.state = .charGap → p = true ∨ decrement s.cfg.wCd s.cd ≠ 0) :
    (tickTransition p s).wr = s.wr ∧ (tickTransition p s).ring = s.ring := by
  cases hs : s.state with
  | idle =>
    simp only [tickTransition, hs, tickIdle]
    split_ifs with _ hcd hacc
    · exact ⟨rfl, rfl⟩
    · exact ⟨rfl, rfl⟩
    · exact absurd (hidle hs) (by simp [hcd, hacc])
    · exact ⟨rfl, rfl⟩
  | dotOrDash =>
    simp only [tickTransition, hs, tickDotOrDash]
    split_ifs <;> exact ⟨rfl, rfl⟩
  | dashExt =>
    simp only [tickTransition, hs, tickDashExt]
    split_ifs <;> exact ⟨rfl, rfl⟩
  | symbolGap =>
    simp only [tickTransition, hs, tickSymbolGap]
    split_ifs <;> exact ⟨rfl, rfl⟩
  | charGap =>
    simp only [tickTransition, hs, tickCharGap]
    split_ifs with hp hcd
    · exact ⟨rfl, rfl⟩
    · exact absurd (hgap hs) (by simp [hp, hcd])
    · exact ⟨rfl, rfl⟩

/-- In the separated form a state of the invariant moves the ring only on the expiry of CHAR_GAP (R111). -/
theorem Inv.expiry_of_push {p : Bool} {s : State} (hi : Inv s) (hf : s.cfg.gapForm = .separated)
    (hne : ¬((tickTransition p s).wr = s.wr ∧ (tickTransition p s).ring = s.ring)) :
    s.state = .charGap ∧ p = false ∧ s.cd = 1 := by
  by_contra hexp
  refine hne (tickTransition_keeps_ring (fun hs => .inr ?_) fun hs => ?_)
  · simpa [hf] using hi.idle hs
  · obtain ⟨-, -, -, hcount, -⟩ := hi.countdown
    obtain ⟨hcd, -⟩ := hcount hs
    obtain ⟨hlt, -⟩ := hi.widths
    rw [decrement_of_pos hcd hlt]
    cases p with
    | true => exact .inl rfl
    | false =>
      have hcd1 : s.cd ≠ 1 := fun h => hexp ⟨hs, rfl, h⟩
      exact .inr (by omega)

/-! ### The statements about one TICK -/

/-- Settles O20, sample by sample; the pushed slot is the one of the write cursor. -/
theorem tickInIdle : Obligations.TickInIdle := by
  unfold Obligations.TickInIdle
  intro s hs
  exact ⟨exec_press_new (.inl hs), exec_release_idle_counting hs, exec_release_idle_settled hs,
    fun hcd hacc => ⟨_, ringHas_push s.acc s, exec_release_idle_pending hs hcd hacc⟩⟩

/-- Settles O21, sample by sample. -/
theorem tickInDotOrDash : Obligations.TickInDotOrDash := by
  unfold Obligations.TickInDotOrDash
  intro s hs
  exact ⟨exec_release_dotOrDash hs, exec_tick_countdown .dotOrDash hs, exec_expiry_dotOrDash hs⟩

/-- Settles O22, sample by sample. -/
theorem tickInDashExt : Obligations.TickInDashExt := by
  unfold Obligations.TickInDashExt
  intro s hs
  exact ⟨exec_release_dashExt hs, exec_tick_countdown .dashExt hs, exec_expiry_dashExt hs⟩

/-- Settles O23, sample by sample. -/
theorem tickInSymbolGap : Obligations.TickInSymbolGap := by
  unfold Obligations.TickInSymbolGap
  intro s hs
  exact ⟨exec_press_symbolGap hs, exec_tick_countdown .symbolGap hs, exec_expiry_symbolGap hs⟩

/-- Settles O24, sample by sample; the pushed slot is the one of the write cursor. -/
theorem tickInCharGap : Obligations.TickInCharGap := by
  unfold Obligations.TickInCharGap
  intro s hs
  exact ⟨exec_press_new (.inr hs), exec_tick_countdown .charGap hs,
    fun hcd hw hf => ⟨_, ringHas_push s.acc s, exec_expiry_charGap hs hcd hw hf⟩⟩

/-- Settles O27: the frame of the transition, its two effects on the ring, and the invariant's one push. -/
theorem tickPushesAtMostOnce : Obligations.TickPushesAtMostOnce := by
  unfold Obligations.TickPushesAtMostOnce
  rintro k s _ ⟨⟩
  refine ⟨?_, ?_, fun hi hf hne => ?_⟩
  · rw [tickTransition_frame]
    simp
  · obtain ⟨-, -, hkeep | ⟨hwr, hring⟩⟩ := tickTransition_ring (pressed k) s
    · exact .inl hkeep
    · refine .inr ⟨hwr, ?_⟩
      have hhas := ringHas_push s.acc s
      rwa [← hring] at hhas
  · obtain ⟨hs, hk, hcd⟩ := hi.expiry_of_push hf hne
    exact ⟨hs, pressed_eq_false_iff.1 hk, hcd⟩

end Sys2Proof.Machine
end

section
/-! PROOFS. Runs of equal samples: what a run of TICKs shows, and the countdowns of 41_timing_fsm.md R101 run to their end
(R115). -/

namespace Sys2Proof.Machine

/-! ### Runs in parts -/

/-- A run whose first part is done. -/
theorem runOps_append_of_next {xs : List Instr} {s u : State} (h : runOps xs s = .next u) (ys : List Instr) :
    runOps (xs ++ ys) s = runOps ys u := by
  rw [runOps_append, h, runOn_next]

/-- The last operation of a run. -/
theorem runOps_snoc_of_next {xs : List Instr} {s u t : State} {i : Instr} (h : runOps xs s = .next u)
    (hi : exec i u = .next t) : runOps (xs ++ [i]) s = .next t := by
  rw [runOps_append_of_next h, runOps_cons_of_next hi, runOps_nil]

/-- A run of equal operations whose first ones are done. -/
theorem runOps_replicate_add_of_next {m : Nat} {i : Instr} {s u : State}
    (h : runOps (List.replicate m i) s = .next u) (n : Nat) :
    runOps (List.replicate (m + n) i) s = runOps (List.replicate n i) u := by
  rw [← List.replicate_append_replicate, runOps_append_of_next h]

/-! ### What `n` ticks show -/

/-- The state after `n` ticks that changed the countdown only, which is now `cd` (41_timing_fsm.md R109). -/
def afterTicks (n cd : Nat) (s : State) : State :=
  { s with
    cd := cd
    tonePort := if n = 0 then s.tonePort else ⟨s.toneEn, s.toneLvl⟩
    tones := s.tones ++ List.replicate n ⟨s.toneEn, s.toneLvl⟩
    resp := if n = 0 then s.resp else none }

@[simp] theorem afterTicks_cfg (n cd : Nat) (s : State) : (afterTicks n cd s).cfg = s.cfg := rfl
@[simp] theorem afterTicks_state (n cd : Nat) (s : State) : (afterTicks n cd s).state = s.state := rfl
@[simp] theorem afterTicks_cd (n cd : Nat) (s : State) : (afterTicks n cd s).cd = cd := rfl
@[simp] theorem afterTicks_acc (n cd : Nat) (s : State) : (afterTicks n cd s).acc = s.acc := rfl
@[simp] theorem afterTicks_toneEn (n cd : Nat) (s : State) : (afterTicks n cd s).toneEn = s.toneEn := rfl
@[simp] theorem afterTicks_toneLvl (n cd : Nat) (s : State) : (afterTicks n cd s).toneLvl = s.toneLvl := rfl
@[simp] theorem afterTicks_wr (n cd : Nat) (s : State) : (afterTicks n cd s).wr = s.wr := rfl
@[simp] theorem afterTicks_rd (n cd : Nat) (s : State) : (afterTicks n cd s).rd = s.rd := rfl
@[simp] theorem afterTicks_ring (n cd : Nat) (s : State) : (afterTicks n cd s).ring = s.ring := rfl

theorem afterTicks_zero (s : State) : afterTicks 0 s.cd s = s := by
  simp [afterTicks]

/-- One tick more. -/
theorem tickShown_afterTicks (n cd cd' : Nat) (s : State) :
    tickShown { afterTicks n cd s with cd := cd' } = afterTicks (n + 1) cd' s := by
  simp [tickShown, afterTicks, List.replicate_succ']

/-- One tick before. -/
theorem afterTicks_tickShown (n cd : Nat) (s : State) : afterTicks n cd (tickShown s) = afterTicks (n + 1) cd s := by
  simp [tickShown, afterTicks, List.replicate_succ]

/-! ### Runs that change the countdown only -/

/-- A run of which each tick takes the countdown from `c n` to `c (n + 1)` and does nothing else. -/
theorem runOps_ticks {k : BitVec 1} {s : State} {N : Nat} (c : Nat → Nat) (hzero : s.cd = c 0)
    (hstep : ∀ n < N, exec (.tick k) (afterTicks n (c n) s) =
      .next (tickShown { afterTicks n (c n) s with cd := c (n + 1) })) :
    runOps (List.replicate N (.tick k)) s = .next (afterTicks N (c N) s) := by
  induction N with
  | zero => rw [← hzero, afterTicks_zero, List.replicate_zero, runOps_nil]
  | succ N ih =>
    have hbefore := ih fun n hn => hstep n (by omega)
    rw [List.replicate_succ', runOps_snoc_of_next hbefore (hstep N (by omega)), tickShown_afterTicks]

/-- A countdown that does not expire yet. -/
theorem runOps_countdown {k : BitVec 1} {st : TimingState} {s : State} {n : Nat} (h : CountsDown k st)
    (hs : s.state = st) (hlt : s.cd < 2 ^ s.cfg.wCd) (hn : n < s.cd) :
    runOps (List.replicate n (.tick k)) s = .next (afterTicks n (s.cd - n) s) :=
  runOps_ticks (s.cd - ·) rfl fun m hm =>
    exec_tick_countdown (s := afterTicks m (s.cd - m) s) h hs (by simp only [afterTicks_cd]; omega)
      (by simp only [afterTicks_cd, afterTicks_cfg]; omega)

/-- A tick that does `e`, and then ticks that change the countdown only. -/
theorem runOps_entry_then {k : BitVec 1} {s e : State} {n cd : Nat}
    (henter : exec (.tick k) s = .next (tickShown e))
    (hrun : runOps (List.replicate n (.tick k)) (tickShown e) = .next (afterTicks n cd (tickShown e))) :
    runOps (List.replicate (1 + n) (.tick k)) s = .next (afterTicks (n + 1) cd e) := by
  rw [Nat.add_comm, List.replicate_succ, runOps_cons_of_next henter, hrun, afterTicks_tickShown]

/-- A tick that enters the timed state of `e`, and then the countdown armed there, up to its value 1. -/
theorem runOps_entered {k : BitVec 1} {st : TimingState} {s e : State} {n : Nat}
    (henter : exec (.tick k) s = .next (tickShown e)) (h : CountsDown k st) (hs : e.state = st)
    (hlt : e.cd < 2 ^ e.cfg.wCd) (hpos : 1 ≤ n) (hn : n ≤ e.cd) :
    runOps (List.replicate n (.tick k)) s = .next (afterTicks n (e.cd + 1 - n) e) := by
  obtain ⟨m, rfl⟩ := Nat.exists_eq_add_of_le hpos
  have hcount := runOps_countdown (s := tickShown e) (n := m) h hs hlt (by simp only [tickShown]; omega)
  rw [runOps_entry_then henter hcount, Nat.add_comm 1 m, Nat.add_sub_add_right]
  rfl

/-- Released in IDLE with nothing pending, only the grace period runs down, and stays 0 (41_timing_fsm.md R104). -/
theorem runOps_silent_idle {s : State} (hs : s.state = .idle) (hacc : s.acc = 1) (hlt : s.cd < 2 ^ s.cfg.wCd)
    (n : Nat) : runOps (silent n) s = .next (afterTicks n (s.cd - n) s) := by
  refine runOps_ticks (s.cd - ·) rfl fun m _ => ?_
  by_cases hm : m < s.cd
  · exact exec_release_idle_counting (s := afterTicks m (s.cd - m) s) hs (by simp only [afterTicks_cd]; omega)
      (by simp only [afterTicks_cd, afterTicks_cfg]; omega)
  · have hcd : s.cd - m = 0 := by omega
    have hcd' : s.cd - (m + 1) = 0 := by omega
    simp only [hcd, hcd']
    exact exec_release_idle_settled (s := afterTicks m 0 s) hs rfl hacc

/-! ### The held dash -/

/-- One sample more, modulo the re-arm period: it is over, or goes on. -/
theorem succ_mod_cases (n : Nat) {r : Nat} (hr : 1 ≤ r) :
    (n % r + 1 = r ∧ (n + 1) % r = 0) ∨ (n % r + 1 < r ∧ (n + 1) % r = n % r + 1) := by
  have hlt : n % r + 1 ≤ r := Nat.mod_lt n hr
  rw [← Nat.mod_add_mod]
  obtain heq | hlt := hlt.eq_or_lt
  · exact .inl ⟨heq, by rw [heq, Nat.mod_self]⟩
  · exact .inr ⟨hlt, Nat.mod_eq_of_lt hlt⟩

/-- A dash held on re-arms its countdown every T_DASH_REARM samples, and changes nothing else (41_timing_fsm.md R115). -/
theorem runOps_held_dashExt {s : State} (hl : configLegal s.cfg = true) (hs : s.state = .dashExt)
    (hcd : s.cd = s.cfg.tDashRearm) (n : Nat) :
    runOps (held n) s = .next (afterTicks n (s.cfg.tDashRearm - n % s.cfg.tDashRearm) s) := by
  obtain ⟨⟨hw, -⟩, -, -, ⟨hr, hlt⟩, -⟩ := (configLegal_iff _).1 hl
  refine runOps_ticks (fun m => s.cfg.tDashRearm - m % s.cfg.tDashRearm) hcd fun m _ => ?_
  obtain ⟨hover, hnext⟩ | ⟨hon, hnext⟩ := succ_mod_cases m hr
  · rw [hnext]
    exact exec_expiry_dashExt hs (by simp only [afterTicks_cd]; omega) (by simp only [afterTicks_cfg]; omega)
  · rw [hnext, ← Nat.sub_sub]
    exact exec_tick_countdown .dashExt hs (by simp only [afterTicks_cd]; omega)
      (by simp only [afterTicks_cd, afterTicks_cfg]; omega)

/-- Settles O30: the run of the held dash as a whole state; the port carries the tone registers, which stay. -/
theorem heldDashChangesOnlyTheCountdown : Obligations.HeldDashChangesOnlyTheCountdown := by
  unfold Obligations.HeldDashChangesOnlyTheCountdown
  intro s hl hs hcd n
  refine ⟨_, runOps_held_dashExt hl hs hcd n, rfl, fun hport => ?_⟩
  simp [afterTicks, hport]

end Sys2Proof.Machine
end

section
/-! PROOFS. Pulses and gaps in tick samples: the dot/dash boundary (41_timing_fsm.md R112) and the gap boundaries (R113). -/

namespace Sys2Proof.Machine

/-! ### A pulse -/

/-- A press outside a pulse starts one, with the accumulator kept in SYMBOL_GAP only (41_timing_fsm.md R103). -/
theorem exec_press_startPulse {s : State} (hs : s.state = .idle ∨ s.state = .symbolGap ∨ s.state = .charGap) :
    ∃ new, exec (.tick 0#1) s = .next (tickShown (startPulse new s)) ∧
      (startPulse new s).acc = if s.state = .symbolGap then s.acc else 1 := by
  obtain hs | hs | hs := hs
  · exact ⟨true, exec_press_new (.inl hs), by simp [hs]⟩
  · exact ⟨false, exec_press_symbolGap hs, by simp [hs]⟩
  · exact ⟨true, exec_press_new (.inr hs), by simp [hs]⟩

section
variable {s : State} {new : Bool} (hl : configLegal s.cfg = true)
  (hpress : exec (.tick 0#1) s = .next (tickShown (startPulse new s)))
include hl hpress

/-- A hold of at most T_SHORT samples is not classified yet. -/
theorem runOps_held_dotOrDash {n : Nat} (hpos : 1 ≤ n) (hn : n ≤ s.cfg.tShort) :
    runOps (held n) s = .next (afterTicks n (s.cfg.tShort + 1 - n) (startPulse new s)) := by
  obtain ⟨-, ⟨-, hlt⟩, -⟩ := (configLegal_iff _).1 hl
  exact runOps_entered hpress .dotOrDash rfl hlt hpos hn

/-- Sample T_SHORT + 1 makes it a dash, and `m` more only move the countdown. -/
theorem runOps_held_dash (m : Nat) :
    runOps (held (s.cfg.tShort + (1 + m))) s =
      .next (afterTicks (m + 1) (s.cfg.tDashRearm - m % s.cfg.tDashRearm)
        (dashClassified (afterTicks s.cfg.tShort 1 (startPulse new s)))) := by
  obtain ⟨⟨hw, -⟩, ⟨hpos, -⟩, -⟩ := (configLegal_iff _).1 hl
  have hshort := runOps_held_dotOrDash hl hpress hpos le_rfl
  rw [Nat.add_sub_cancel_left] at hshort
  have hexpiry := exec_expiry_dotOrDash (s := afterTicks s.cfg.tShort 1 (startPulse new s)) rfl rfl
    (show 1 ≤ s.cfg.wCd by omega)
  rw [runOps_replicate_add_of_next hshort]
  refine runOps_entry_then hexpiry (runOps_held_dashExt ?_ rfl rfl m)
  exact hl

end

/-- Settles O28: the hold as a whole state up to T_SHORT samples and beyond, then the release of each. -/
theorem dotDashBoundary : Obligations.DotDashBoundary := by
  unfold Obligations.DotDashBoundary
  rintro s hi hs a rfl
  obtain ⟨new, hpress, hacc⟩ := exec_press_startPulse hs
  rw [← hacc]
  refine ⟨fun n hpos hn => ?_, fun n hn => ?_⟩
  · have hheld := runOps_held_dotOrDash hi.legal hpress hpos hn
    exact ⟨⟨_, hheld, rfl, rfl, rfl, rfl⟩,
      _, runOps_snoc_of_next hheld (exec_release_dotOrDash rfl), rfl, rfl, rfl, rfl, rfl, rfl⟩
  · obtain ⟨m, rfl⟩ := Nat.exists_eq_add_of_le hn
    have hheld := runOps_held_dash hi.legal hpress m
    rw [← Nat.add_assoc] at hheld
    exact ⟨⟨_, hheld, rfl, rfl, rfl, rfl⟩,
      _, runOps_snoc_of_next hheld (exec_release_dashExt rfl), rfl, rfl, rfl, rfl, rfl, rfl⟩

/-! ### A gap -/

/-- A release in a pulse enters the gap, with the dot appended in DOT_OR_DASH. -/
theorem exec_release_pulse {s : State} (hs : s.state = .dotOrDash ∨ s.state = .dashExt) :
    exec (.tick 1#1) s = .next (tickShown
      (gapEntered (if s.state = .dotOrDash then (2 * s.acc) % 2 ^ s.cfg.wPc else s.acc) s)) := by
  obtain hs | hs := hs
  · rw [if_pos hs]
    exact exec_release_dotOrDash hs
  · rw [if_neg (by simp [hs])]
    exact exec_release_dashExt hs

section
variable {s : State} {a : Nat} (hl : configLegal s.cfg = true)
  (hrelease : exec (.tick 1#1) s = .next (tickShown (gapEntered a s)))
include hl hrelease

/-- Up to T_LONG silent samples the symbol is open. -/
theorem runOps_silent_symbolGap {g : Nat} (hpos : 1 ≤ g) (hg : g ≤ s.cfg.tLong) :
    runOps (silent g) s = .next (afterTicks g (s.cfg.tLong + 1 - g) (gapEntered a s)) := by
  obtain ⟨-, -, ⟨-, hlt⟩, -⟩ := (configLegal_iff _).1 hl
  exact runOps_entered hrelease .symbolGap rfl hlt hpos hg

/-- From sample T_LONG + 1 the symbol is complete, and for T_CHAR_GAP samples not pushed yet. -/
theorem runOps_silent_charGap {m : Nat} (hpos : 1 ≤ m) (hm : m ≤ s.cfg.tCharGap) :
    runOps (silent (s.cfg.tLong + m)) s =
      .next (afterTicks m (s.cfg.tCharGap + 1 - m) (symbolCompleted (afterTicks s.cfg.tLong 1 (gapEntered a s)))) := by
  obtain ⟨⟨hw, -⟩, -, ⟨hlong, -⟩, -, ⟨-, hlt⟩, -⟩ := (configLegal_iff _).1 hl
  have hgap := runOps_silent_symbolGap hl hrelease hlong le_rfl
  rw [Nat.add_sub_cancel_left] at hgap
  have hexpiry := exec_expiry_symbolGap (s := afterTicks s.cfg.tLong 1 (gapEntered a s)) rfl rfl
    (show 1 ≤ s.cfg.wCd by omega)
  rw [runOps_replicate_add_of_next hgap]
  exact runOps_entered hexpiry .charGap rfl hlt hpos hm

/-- Sample T_LONG + T_CHAR_GAP + 1 pushes it, and `m` more only let the grace period run down. -/
theorem runOps_silent_pushed (hf : s.cfg.gapForm = .separated) (m : Nat) :
    runOps (silent (s.cfg.tLong + s.cfg.tCharGap + (1 + m))) s =
      .next (afterTicks (m + 1) (s.cfg.tGrace - m) (characterPushed (afterTicks s.cfg.tCharGap 1
        (symbolCompleted (afterTicks s.cfg.tLong 1 (gapEntered a s)))))) := by
  obtain ⟨⟨hw, -⟩, -, -, -, ⟨hgap, -⟩, -, hgrace⟩ := (configLegal_iff _).1 hl
  have hcomplete := runOps_silent_charGap hl hrelease hgap le_rfl
  rw [Nat.add_sub_cancel_left] at hcomplete
  have hexpiry := exec_expiry_charGap (s := afterTicks s.cfg.tCharGap 1
    (symbolCompleted (afterTicks s.cfg.tLong 1 (gapEntered a s)))) rfl rfl (show 1 ≤ s.cfg.wCd by omega) hf
  rw [runOps_replicate_add_of_next hcomplete]
  exact runOps_entry_then hexpiry (runOps_silent_idle rfl rfl hgrace m)

end

/-- Settles O29: the gap as a whole state in each of its three ranges, then the press in the two that it ends. -/
theorem gapBoundaries : Obligations.GapBoundaries := by
  unfold Obligations.GapBoundaries
  intro s hi hf hs a ha
  have hrelease := exec_release_pulse hs
  rw [← ha] at hrelease
  have hfits : a % 2 ^ s.cfg.wPc = a := by
    obtain ⟨-, hacc, -⟩ := hi.widths
    rw [ha]
    split
    · exact Nat.mod_mod _ _
    · exact Nat.mod_eq_of_lt hacc
  obtain ⟨-, -, -, -, ⟨hgap, -⟩, -⟩ := (configLegal_iff _).1 hi.legal
  refine ⟨fun g hpos hg => ?_, ?_, fun g hlong hg => ?_, ?_, fun g hg => ?_⟩
  · have hsilent := runOps_silent_symbolGap hi.legal hrelease hpos hg
    exact ⟨_, runOps_snoc_of_next hsilent (exec_press_symbolGap rfl), rfl, rfl, rfl, rfl⟩
  · exact ⟨_, runOps_silent_charGap hi.legal hrelease le_rfl hgap, rfl, rfl, rfl⟩
  · obtain ⟨m, rfl⟩ := Nat.exists_eq_add_of_le (show s.cfg.tLong ≤ g by omega)
    have hsilent := runOps_silent_charGap hi.legal hrelease (m := m) (by omega) (by omega)
    exact ⟨_, runOps_snoc_of_next hsilent (exec_press_new (.inr rfl)), rfl, rfl, rfl, rfl⟩
  · exact ⟨_, runOps_silent_pushed hi.legal hrelease hf 0, rfl, rfl⟩
  · obtain ⟨m, rfl⟩ := Nat.exists_eq_add_of_le hg
    rw [Nat.add_assoc _ 1 m]
    have hhas := ringHas_push a s
    rw [hfits] at hhas
    exact ⟨_, runOps_silent_pushed hi.legal hrelease hf m, rfl, rfl, rfl, hhas⟩

end Sys2Proof.Machine
end

section
/-! PROOFS. The ring buffer: PUSH, POP and RDWC one by one (43_ring_buffer.md R150, R151, R155), and what any interleaving
of pushes and pops delivers (R152, R153). -/

namespace Sys2Proof.Machine

/-! ### The operations, one by one -/

/-- Settles O36: the slot of the write cursor holds the code, which fits it. -/
theorem pushWritesSlotThenCursor : Obligations.PushWritesSlotThenCursor := by
  unfold Obligations.PushWritesSlotThenCursor
  intro v s hv
  have hhas := ringHas_push v s
  rw [Nat.mod_eq_of_lt hv] at hhas
  exact ⟨_, hhas, rfl⟩

/-- Settles O37: the two answers of POP. -/
theorem popAnswersTheSlotAtRd : Obligations.PopAnswersTheSlotAtRd := by
  unfold Obligations.PopAnswersTheSlotAtRd
  exact fun _ => ⟨exec_pop_empty, exec_pop_some⟩

/-- Settles O55: a cursor below 2^16 is the value of its response. -/
theorem rdwcAnswersACursorThatFits : Obligations.RdwcAnswersACursorThatFits := by
  unfold Obligations.RdwcAnswersACursorThatFits
  intro s hfits
  have hvalue : (zext16 s.wr).toNat = s.wr := by rw [BitVec.toNat_ofNat, Nat.mod_eq_of_lt hfits]
  exact ⟨zext16 s.wr, hvalue, exec_rdwc s⟩

/-! ### Slots and cursors -/

/-- Cursors that agree modulo 16 address the same slot (20_memory.md R57). -/
theorem slotAt_congr {j k : Nat} (h : j % 16 = k % 16) (ring : Vector Nat 16) : slotAt ring j = slotAt ring k := by
  simp only [slotAt, h]

/-- A cursor of at least 4 bits, wrapped, still addresses the slot of the count it stands for. -/
theorem mod_two_pow_mod_sixteen {w : Nat} (hw : 4 ≤ w) (n : Nat) : n % 2 ^ w % 16 = n % 16 :=
  Nat.mod_mod_of_dvd n (pow_dvd_pow 2 hw)

/-- The slot of a cursor after a PUSH (43_ring_buffer.md R150). -/
theorem slotAt_push (v : Nat) (s : State) (k : Nat) :
    slotAt (push v s).ring k = if k % 16 = s.wr % 16 then v % 2 ^ s.cfg.wPc else slotAt s.ring k :=
  push_slot v s (slotOf k)

/-- Of the first `p` pushes, the last one into the slot of push `k` (43_ring_buffer.md R153). -/
def latestPush (p k : Nat) : Nat := k + 16 * ((p - 1 - k) / 16)

theorem latestPush_mod (p k : Nat) : latestPush p k % 16 = k % 16 := Nat.add_mul_mod_self_left _ _ _

theorem latestPush_lt {p k : Nat} (h : k < p) : latestPush p k < p := by
  unfold latestPush
  omega

/-- It is among the last 16 pushes. -/
theorem le_latestPush_add (p k : Nat) : p ≤ latestPush p k + 16 := by
  unfold latestPush
  omega

/-- The form of 43_ring_buffer.md R152. -/
theorem sub_mod_eq_latestPush {p k : Nat} (h : k < p) : p - 1 - (p - 1 - k) % 16 = latestPush p k := by
  unfold latestPush
  omega

/-! ### What a ring and its history have to do with each other -/

/-- The registers are those of the history's counts, and each of the last 16 codes pushed stands in its slot
(43_ring_buffer.md R152). -/
structure RingHistory.Tracks (c : Config) (h : RingHistory) : Prop where
  cfg : h.now.cfg = c
  wr : h.now.wr = h.pushed.length % 2 ^ c.wCur
  rd : h.now.rd = h.popped.length % 2 ^ c.wCur
  le : h.popped.length ≤ h.pushed.length
  fits : ∀ v ∈ h.pushed, v < 2 ^ c.wPc
  slots : ∀ (j : Nat) (hj : j < h.pushed.length), h.pushed.length ≤ j + 16 → slotAt h.now.ring j = h.pushed[j]

namespace RingHistory

/-- A POP that finds the cursors equal delivers nothing. -/
theorem apply_pop_empty {h : RingHistory} (he : h.now.rd = h.now.wr) :
    h.apply .pop = { h with now := respond 0#16 h.now } := by
  simp [apply, exec_pop_empty he, poppedCode]

/-- A POP that finds them different delivers the code in the slot of the read cursor. -/
theorem apply_pop_some {h : RingHistory} {v : Nat} (hw : h.now.cfg.wPc ≤ 12) (hne : h.now.rd ≠ h.now.wr)
    (hs : slotAt h.now.ring h.now.rd = v) (hv : v < 2 ^ h.now.cfg.wPc) :
    h.apply .pop =
      { h with
        now := respond (popResponse v) { h.now with rd := cursorNext h.now.cfg.wCur h.now.rd }
        popped := h.popped ++ [v] } := by
  have hslot : h.now.ring[slotOf h.now.rd] = v := hs
  simp only [apply, exec_pop_some hne, hslot, poppedCode, respond_resp, respond_cfg, respValid_popResponse, if_true,
    respField_popResponse hw hv, Option.toList_some]

namespace Tracks

/-- At reset, whatever the slots hold. -/
theorem initial {s : State} (hwr : s.wr = 0) (hrd : s.rd = 0) : Tracks s.cfg ⟨s, [], []⟩ where
  cfg := rfl
  wr := by simp [hwr]
  rd := by simp [hrd]
  le := le_rfl
  fits := by simp
  slots := by simp

section
variable {c : Config} {h : RingHistory}

/-- The buffer reads as empty at whole laps, and only there (43_ring_buffer.md R151, R153). -/
theorem empty_iff (ht : h.Tracks c) :
    h.now.rd = h.now.wr ↔ 2 ^ c.wCur ∣ h.pushed.length - h.popped.length := by
  rw [ht.rd, ht.wr]
  exact Nat.modEq_iff_dvd' ht.le

/-- Where the read cursor goes on a successful POP. -/
theorem rd_next (ht : h.Tracks c) : (h.now.rd + 1) % 2 ^ h.now.cfg.wCur = (h.popped.length + 1) % 2 ^ c.wCur := by
  rw [ht.cfg, ht.rd, Nat.mod_add_mod]

theorem popped_lt_pushed (ht : h.Tracks c) (hne : h.now.rd ≠ h.now.wr) : h.popped.length < h.pushed.length := by
  refine ht.le.lt_of_ne fun heq => hne (ht.empty_iff.2 ?_)
  rw [heq, Nat.sub_self]
  exact dvd_zero _

/-- With unread codes, but less than a lap of them, the buffer does not read as empty. -/
theorem not_empty_of_lt (ht : h.Tracks c) (hlt : h.popped.length < h.pushed.length)
    (hlap : h.pushed.length - h.popped.length < 2 ^ c.wCur) : h.now.rd ≠ h.now.wr := fun he =>
  Nat.not_dvd_of_pos_of_lt (Nat.sub_pos_of_lt hlt) hlap (ht.empty_iff.1 he)

/-- The slot of the read cursor holds the last code pushed into it (43_ring_buffer.md R152). -/
theorem slotAt_rd (ht : h.Tracks c) (hw : 4 ≤ c.wCur) (hlt : h.popped.length < h.pushed.length) :
    slotAt h.now.ring h.now.rd = h.pushed[latestPush h.pushed.length h.popped.length]'(latestPush_lt hlt) := by
  rw [← ht.slots _ (latestPush_lt hlt) (le_latestPush_add _ _), ht.rd]
  exact slotAt_congr ((mod_two_pow_mod_sixteen hw _).trans (latestPush_mod _ _).symm) _

/-- A PUSH writes its own slot, which is that of none of the 15 codes before it. -/
theorem push (ht : h.Tracks c) (hw : 4 ≤ c.wCur) {v : Nat} (hv : v < 2 ^ c.wPc) : (h.apply (.push v)).Tracks c where
  cfg := ht.cfg
  wr := by simp [apply, cursorNext, ht.cfg, ht.wr]
  rd := ht.rd
  le := by simpa [apply] using Nat.le_succ_of_le ht.le
  fits := by
    intro u hu
    obtain hu | rfl := by simpa [apply] using hu
    · exact ht.fits u hu
    · exact hv
  slots := by
    intro j hj hlast
    simp only [apply, List.length_append, List.length_singleton] at hj hlast ⊢
    rw [slotAt_push, ht.cfg, ht.wr, mod_two_pow_mod_sixteen hw]
    obtain hold | rfl := Nat.lt_succ_iff_lt_or_eq.1 hj
    · rw [if_neg (by omega), List.getElem_append_left hold]
      exact ht.slots j hold (by omega)
    · rw [if_pos rfl, Nat.mod_eq_of_lt hv, List.getElem_concat_length rfl]

/-- What a POP that finds the cursors different makes of the history (43_ring_buffer.md R152). -/
theorem apply_pop_some (ht : h.Tracks c) (hl : configLegal c = true) (hne : h.now.rd ≠ h.now.wr) :
    ∃ t : State, t.cfg = c ∧ t.wr = h.now.wr ∧ t.rd = (h.popped.length + 1) % 2 ^ c.wCur ∧ t.ring = h.now.ring ∧
      h.apply .pop =
        ⟨t, h.pushed, h.popped ++ [h.pushed.getD (latestPush h.pushed.length h.popped.length) 0]⟩ := by
  obtain ⟨⟨-, -, hwPc, hwCur⟩, -⟩ := (configLegal_iff _).1 hl
  have hlt := ht.popped_lt_pushed hne
  have hslot := ht.slotAt_rd hwCur hlt
  have hfits := ht.fits _ (List.getElem_mem (latestPush_lt hlt))
  rw [List.getD_eq_getElem _ _ (latestPush_lt hlt)]
  refine ⟨_, ?_, ?_, ?_, ?_, RingHistory.apply_pop_some (ht.cfg ▸ hwPc) hne hslot (ht.cfg ▸ hfits)⟩
  · exact ht.cfg
  · rfl
  · exact ht.rd_next
  · rfl

/-- A POP leaves the slots, and counts only what it delivers. -/
theorem pop (ht : h.Tracks c) (hl : configLegal c = true) : (h.apply .pop).Tracks c := by
  by_cases he : h.now.rd = h.now.wr
  · rw [apply_pop_empty he]
    exact ⟨ht.cfg, ht.wr, ht.rd, ht.le, ht.fits, ht.slots⟩
  · obtain ⟨t, hcfg, hwr, hrd, hring, happly⟩ := ht.apply_pop_some hl he
    rw [happly]
    exact ⟨hcfg, hwr.trans ht.wr, by simpa using hrd, by simpa using ht.popped_lt_pushed he, ht.fits,
      fun j hj hlast => by rw [← ht.slots j hj hlast, hring]⟩

/-- Every sequence of operations keeps the relation. -/
theorem foldl (ht : h.Tracks c) (hl : configLegal c = true) {ops : List RingOp}
    (hops : ∀ v, RingOp.push v ∈ ops → v < 2 ^ c.wPc) : (ops.foldl apply h).Tracks c := by
  induction ops generalizing h with
  | nil => exact ht
  | cons op ops ih =>
    refine ih ?_ fun v hv => hops v (List.mem_cons_of_mem _ hv)
    cases op with
    | push v =>
      obtain ⟨⟨-, -, -, hw⟩, -⟩ := (configLegal_iff _).1 hl
      exact ht.push hw (hops v List.mem_cons_self)
    | pop => exact ht.pop hl

/-- Pops alone, no more than there are unread codes and less than a lap of those: all succeed, and each delivers the last
code pushed into its slot (43_ring_buffer.md R153). -/
theorem foldl_pops (ht : h.Tracks c) (hl : configLegal c = true)
    (hlap : h.pushed.length - h.popped.length < 2 ^ c.wCur) {n : Nat}
    (hn : n ≤ h.pushed.length - h.popped.length) :
    ((List.replicate n .pop).foldl apply h).pushed = h.pushed ∧
      ((List.replicate n .pop).foldl apply h).popped = h.popped ++ (List.range n).map
        fun i => h.pushed.getD (latestPush h.pushed.length (h.popped.length + i)) 0 := by
  induction n with
  | zero => simp
  | succ n ih =>
    obtain ⟨hpushed, hpopped⟩ := ih (by omega)
    have htn : ((List.replicate n .pop).foldl apply h).Tracks c := ht.foldl hl (by simp)
    rw [List.replicate_succ', List.foldl_append, List.foldl_cons, List.foldl_nil]
    generalize (List.replicate n RingOp.pop).foldl apply h = g at hpushed hpopped htn ⊢
    have hlen : g.popped.length = h.popped.length + n := by simp [hpopped]
    have hne := htn.not_empty_of_lt (by rw [hlen, hpushed]; omega) (by rw [hlen, hpushed]; omega)
    obtain ⟨t, -, -, -, -, happly⟩ := htn.apply_pop_some hl hne
    rw [happly, hlen, hpushed, hpopped]
    simp [List.range_succ]

end

end Tracks

end RingHistory

/-- Every interleaving of pushes and pops from reset cursors, whatever the slots held. -/
theorem tracks_ringHistory {s : State} {ops : List RingOp} (hl : configLegal s.cfg = true) (hwr : s.wr = 0)
    (hrd : s.rd = 0) (hops : ∀ v, RingOp.push v ∈ ops → v < 2 ^ s.cfg.wPc) : (ringHistory ops s).Tracks s.cfg :=
  (RingHistory.Tracks.initial hwr hrd).foldl hl hops

theorem ringHistory_append (ops ops' : List RingOp) (s : State) :
    ringHistory (ops ++ ops') s = ops'.foldl RingHistory.apply (ringHistory ops s) :=
  List.foldl_append

/-! ### The statements about a history -/

/-- Settles O39: the history's relation to the ring, read at the read cursor's slot. -/
theorem popReadsTheLatestCodeOfItsSlot : Obligations.PopReadsTheLatestCodeOfItsSlot := by
  unfold Obligations.PopReadsTheLatestCodeOfItsSlot
  intro s ops hl hwr hrd hops h p q hh hp hq
  have ht : h.Tracks s.cfg := hh ▸ tracks_ringHistory hl hwr hrd hops
  subst hp hq
  refine ⟨ht.wr, ht.rd, ht.le, fun hne => ?_, by omega⟩
  obtain ⟨⟨-, -, -, hw⟩, -⟩ := (configLegal_iff _).1 hl
  have hlt := ht.popped_lt_pushed hne
  rw [sub_mod_eq_latestPush hlt]
  refine ⟨hlt, _, List.getElem?_eq_getElem (latestPush_lt hlt), ?_⟩
  obtain ⟨-, hsome⟩ := popAnswersTheSlotAtRd h.now
  rw [hsome hne, ht.slotAt_rd hw hlt, ht.rd_next]

/-- Settles O40: the run of pops, after which the cursors are equal; a whole lap makes them equal too. -/
theorem laggingConsumerSequence : Obligations.LaggingConsumerSequence := by
  unfold Obligations.LaggingConsumerSequence
  intro s ops hl hwr hrd hops h p q hh hp hq
  have ht : h.Tracks s.cfg := hh ▸ tracks_ringHistory hl hwr hrd hops
  subst hp hq
  refine ⟨fun _ hlap => ?_, fun hlag => ⟨by omega, fun i hi => ?_⟩,
    fun hmod => exec_pop_empty (ht.empty_iff.2 (Nat.dvd_of_mod_eq_zero hmod))⟩
  · obtain ⟨hpushed, hpopped⟩ := ht.foldl_pops hl hlap le_rfl
    have htEnd : ((List.replicate (h.pushed.length - h.popped.length) .pop).foldl RingHistory.apply h).Tracks s.cfg :=
      ht.foldl hl (by simp)
    rw [ringHistory_append, ← hh]
    refine ⟨hpopped, exec_pop_empty (htEnd.empty_iff.2 ?_)⟩
    simp [hpushed, hpopped, Nat.add_sub_of_le ht.le]
  · exact ⟨Nat.sub_le_of_le_add (le_latestPush_add _ _), latestPush_lt (by omega)⟩

end Sys2Proof.Machine
end

section
/-! PROOFS. RESET, the power-cycle (70_reset_and_hazards.md R220). -/

namespace Sys2Proof.Machine

/-- The slots a RESET leaves, as free values cut to their width (log 7). -/
theorem unspecifiedRing_slot (wPc counter : Nat) (i : Fin 16) :
    (unspecifiedRing wPc counter)[i] = wrap wPc (Config.freeSlot counter i) := by
  simp [unspecifiedRing]

/-- They fit their width (10_state.md R29). -/
theorem unspecifiedRing_slot_lt (wPc counter : Nat) (i : Fin 16) : (unspecifiedRing wPc counter)[i] < 2 ^ wPc := by
  rw [unspecifiedRing_slot]
  exact wrap_lt _ _

/-- Settles O15: RESET writes the registers it names and keeps the mark, its slots fit their width, and a POP then finds
the cursors equal. -/
theorem resetOperationPowerCycles : Obligations.ResetOperationPowerCycles := by
  unfold Obligations.ResetOperationPowerCycles
  intro s
  have hslots := unspecifiedRing_slot_lt s.cfg.wPc s.freeCounter
  exact ⟨_, rfl, rfl, rfl, rfl, rfl, rfl, rfl, rfl, rfl, rfl, hslots, rfl, exec_pop_empty rfl⟩

end Sys2Proof.Machine
end

section
/-! PROOFS. The encoder's words read back (30_encoding.md R70, R81, R85). -/

namespace Sys2Proof.Machine

/-- Settles O2: the decoder reads what the encoder writes. -/
theorem decodeOfEncodeIsTheInstruction : Obligations.DecodeOfEncodeIsTheInstruction := by
  unfold Obligations.DecodeOfEncodeIsTheInstruction
  exact fun _ _ => decodeWord_encode

/-- Settles O1: the words are those of the table, and the three others break one rule of R80 each. -/
theorem writtenOutWordsDecode : Obligations.WrittenOutWordsDecode := by
  unfold Obligations.WrittenOutWordsDecode
  decide

/-- Settles O50: each expansion, operation by operation, is the operation's word. -/
theorem pseudoInstructionsExpand : Obligations.PseudoInstructionsExpand := by
  unfold Obligations.PseudoInstructionsExpand
  intro n
  simp [assembleLines, AsmLine.expand, encode_tick_zero, encode_tick_one]

end Sys2Proof.Machine
end

section
/-! PROOFS. The invariant of 10_state.md R36: each transition of TICK keeps it, and so does each step. -/

namespace Sys2Proof.Machine

/-! ### What a step can do to the hardware -/

/-- What the invariant speaks of: the parameters, the block state and the tone port (10_state.md R35, R36). -/
def hardware (s : State) : Config × BlockState × TonePort := (s.cfg, s.block, s.tonePort)

/-- The operation `i` is the next item of the total order, as a word or as the turn of the running loop. -/
def TakesOperation (s : State) (i : Instr) (rest : List Move) : Prop :=
  (∃ w, s.pending = .word w :: rest ∧ decodeWord s.cfg.wPc w = .ok i) ∨
    (s.pending = .consumerTurn :: rest ∧ s.looping = true ∧ i = nextOp s.consumer)

theorem hardware_renderStep (i : Instr) (s : State) : hardware (renderStep i s) = hardware s := by
  rw [renderStep_frame]
  rfl

/-- A step either leaves the hardware or does to it what one operation does. -/
theorem step_hardware_cases {s t : State} (h : step s = .next t) :
    hardware t = hardware s ∨
      ∃ i rest u, TakesOperation s i rest ∧ exec i { s with pending := rest } = .next u ∧ hardware t = hardware u := by
  obtain ⟨-, ⟨hp, rfl⟩ | ⟨rest, hp, rfl⟩ | ⟨rest, hp, rfl⟩ | ⟨w, rest, r, hp, hr, rfl⟩ |
    ⟨w, rest, i, u, hp, hd, hu, ht⟩ | ⟨rest, u, hp, hloop, hu, rfl⟩⟩ := step_cases h
  · exact .inl rfl
  · exact .inl rfl
  · exact .inl rfl
  · exact .inl rfl
  · refine .inr ⟨i, rest, u, .inl ⟨w, hp, hd⟩, hu, ?_⟩
    obtain ⟨-, rfl⟩ | ⟨-, rfl⟩ := ht
    · rfl
    · exact hardware_renderStep i u
  · exact .inr ⟨_, rest, u, .inr ⟨hp, hloop, rfl⟩, hu, hardware_renderStep _ u⟩

/-- The operations the consumer issues (44_host_consumer.md R171). -/
abbrev IsConsumerOp (i : Instr) : Prop := i = .pop ∨ i = .rdwc ∨ ∃ c, i = .decode c

/-- POP, RDWC and DECODE write the read cursor and the response only (43_ring_buffer.md R151, R155; 42_decode_lut.md
R140). -/
theorem exec_consumer_frame {i : Instr} {s t : State} (hi : IsConsumerOp i) (h : exec i s = .next t) :
    t = { s with rd := t.rd, resp := t.resp, responses := t.responses } := by
  obtain rfl | rfl | ⟨c, rfl⟩ := hi
  · by_cases he : s.rd = s.wr
    · rw [exec_pop_empty he] at h
      cases h
      rfl
    · rw [exec_pop_some he] at h
      cases h
      rfl
  · cases h
    rfl
  · cases h
    rfl

/-- Everything an operation can have done: a TICK its transition, the consumer's operations what is theirs, and RESET. -/
theorem exec_next_cases {i : Instr} {s t : State} (h : exec i s = .next t) :
    (∃ k, i = .tick k ∧ t = tickShown (tickTransition (pressed k) s)) ∨
      (IsConsumerOp i ∧ t = { s with rd := t.rd, resp := t.resp, responses := t.responses }) ∨
      (i = .reset ∧ execReset s = .next t) := by
  cases i with
  | tick k => cases h; exact .inl ⟨k, rfl, rfl⟩
  | pop => exact .inr (.inl ⟨.inl rfl, exec_consumer_frame (.inl rfl) h⟩)
  | rdwc => exact .inr (.inl ⟨.inr (.inl rfl), exec_consumer_frame (.inr (.inl rfl)) h⟩)
  | decode c => exact .inr (.inl ⟨.inr (.inr ⟨c, rfl⟩), exec_consumer_frame (.inr (.inr ⟨c, rfl⟩)) h⟩)
  | reset => exact .inr (.inr ⟨rfl, h⟩)

/-- An operation that moves the read cursor is RESET, or a POP that finds the cursors different. -/
theorem exec_rd_cases {i : Instr} {s t : State} (h : exec i s = .next t) (hne : t.rd ≠ s.rd) :
    i = .reset ∨ (i = .pop ∧ s.rd ≠ s.wr ∧ t.rd = (s.rd + 1) % 2 ^ s.cfg.wCur) := by
  cases i with
  | tick k =>
    cases h
    obtain ⟨-, hrd, -⟩ := tickTransition_ring (pressed k) s
    exact absurd hrd hne
  | pop =>
    by_cases he : s.rd = s.wr
    · rw [exec_pop_empty he] at h
      cases h
      exact absurd rfl hne
    · rw [exec_pop_some he] at h
      cases h
      exact .inr ⟨rfl, he, rfl⟩
  | rdwc => cases h; exact absurd rfl hne
  | decode c => cases h; exact absurd rfl hne
  | reset => exact .inl rfl

/-! ### The parameters -/

/-- No operation writes a parameter. -/
theorem exec_cfg {i : Instr} {s t : State} (h : exec i s = .next t) : t.cfg = s.cfg := by
  obtain ⟨k, -, rfl⟩ | ⟨-, ht⟩ | ⟨-, hreset⟩ := exec_next_cases h
  · obtain ⟨hcfg, -⟩ := tickTransition_ring (pressed k) s
    exact hcfg
  · rw [ht]
  · cases hreset
    rfl

theorem step_cfg {s t : State} (h : step s = .next t) : t.cfg = s.cfg := by
  obtain heq | ⟨i, rest, u, -, hu, heq⟩ := step_hardware_cases h
  · exact congrArg Prod.fst heq
  · have hcfg := exec_cfg hu
    exact (congrArg Prod.fst heq).trans hcfg

/-- Settles O13: no operation writes a parameter, and a step is one operation at most. -/
theorem configurationNeverChanges : Obligations.ConfigurationNeverChanges := by
  unfold Obligations.ConfigurationNeverChanges
  exact fun _ _ => step_cfg

/-! ### The invariant, state by state -/

/-- 10_state.md R36 (a) to (d), read for the state the timing machine is in. -/
def TimingOk (s : State) : Prop :=
  match s.state with
  | .idle => s.toneEn = false ∧ s.cd ≤ s.cfg.tGrace ∧ (s.acc = 1 ∨ (s.cfg.gapForm = .combined ∧ s.cd = 0))
  | .dotOrDash => s.toneEn = true ∧ s.toneLvl = .dot ∧ 1 ≤ s.cd ∧ s.cd ≤ s.cfg.tShort
  | .dashExt => s.toneEn = true ∧ s.toneLvl = .dash ∧ 1 ≤ s.cd ∧ s.cd ≤ s.cfg.tDashRearm
  | .symbolGap => s.toneEn = false ∧ 1 ≤ s.cd ∧ s.cd ≤ s.cfg.tLong
  | .charGap => s.toneEn = false ∧ 1 ≤ s.cd ∧ s.cd ≤ s.cfg.tCharGap

theorem timingOk_iff (s : State) :
    TimingOk s ↔ ToneFollowsKey s ∧ LevelFollowsPulse s ∧ CountdownInRange s ∧ NothingPendingInIdle s := by
  cases hs : s.state <;> simp [TimingOk, ToneFollowsKey, LevelFollowsPulse, CountdownInRange, hs]

theorem Inv.timingOk {s : State} (hi : Inv s) : TimingOk s :=
  (timingOk_iff s).2 ⟨hi.tone, hi.level, hi.countdown, hi.idle⟩

theorem Inv.of_timingOk {s : State} (hl : configLegal s.cfg = true) (hw : WidthsOk s) (ht : TimingOk s)
    (hp : PortCarriesRegisters s) : Inv s := by
  obtain ⟨htone, hlevel, hcount, hidle⟩ := (timingOk_iff s).1 ht
  exact ⟨hl, hw, htone, hlevel, hcount, hidle, hp⟩

/-- The invariant speaks of the hardware only. -/
theorem Inv.of_hardware_eq {s t : State} (hi : Inv s) (h : hardware t = hardware s) : Inv t := by
  cases s
  cases t
  simp only [hardware, State.block, Prod.mk.injEq, BlockState.mk.injEq] at h
  obtain ⟨rfl, ⟨rfl, rfl, rfl, rfl, rfl, rfl, rfl, rfl⟩, rfl⟩ := h
  exact ⟨hi.legal, hi.widths, hi.tone, hi.level, hi.countdown, hi.idle, hi.port⟩

/-! ### TICK keeps it -/

/-- A sentinel fits the accumulator of a legal configuration. -/
theorem one_lt_two_pow_wPc {c : Config} (hl : configLegal c = true) : 1 < 2 ^ c.wPc := by
  obtain ⟨⟨-, hw, -⟩, -⟩ := (configLegal_iff c).1 hl
  exact Nat.one_lt_two_pow (by omega)

/-- Registers and slots stay within their widths where the countdown and the accumulator get values that fit. -/
theorem WidthsOk.set {s e : State} (hw : WidthsOk s) (hcfg : e.cfg = s.cfg) (hcd : e.cd < 2 ^ s.cfg.wCd)
    (hacc : e.acc < 2 ^ s.cfg.wPc) (hwr : e.wr = s.wr) (hrd : e.rd = s.rd) (hring : e.ring = s.ring) : WidthsOk e := by
  obtain ⟨-, -, hswr, hsrd, hsring⟩ := hw
  unfold WidthsOk
  rw [hcfg, hwr, hrd, hring]
  exact ⟨hcd, hacc, hswr, hsrd, hsring⟩

/-- The countdown of a timed state, unless it expires. -/
theorem decrement_in_range {c : Config} {cd t : Nat} (ht : t < 2 ^ c.wCd) (hpos : 1 ≤ cd) (hcd : cd ≤ t)
    (hne : decrement c.wCd cd ≠ 0) : 1 ≤ decrement c.wCd cd ∧ decrement c.wCd cd ≤ t := by
  rw [decrement_of_pos hpos (by omega)] at hne ⊢
  omega

/-- Every transition keeps the registers within their widths. -/
theorem tickTransition_widthsOk {s : State} (hl : configLegal s.cfg = true) (hw : WidthsOk s) (p : Bool) :
    WidthsOk (tickTransition p s) := by
  have hone := one_lt_two_pow_wPc hl
  have hdec := decrement_lt s.cfg.wCd s.cd
  obtain ⟨-, ⟨-, hshort⟩, ⟨-, hlong⟩, ⟨-, hrearm⟩, ⟨-, hgap⟩, -, hgrace⟩ := (configLegal_iff _).1 hl
  obtain ⟨hcd, hacc, -⟩ := id hw
  obtain ⟨-, -, hpushed⟩ := push_widthsOk hw s.acc
  cases hs : s.state with
  | idle =>
    simp only [tickTransition, hs, tickIdle]
    split_ifs
    · exact hw.set rfl hshort hone rfl rfl rfl
    · exact hw.set rfl hdec hacc rfl rfl rfl
    · exact ⟨hgrace, hone, hpushed⟩
    · exact hw
  | dotOrDash =>
    simp only [tickTransition, hs, tickDotOrDash]
    split_ifs
    · exact hw.set rfl hrearm (wrap_lt _ _) rfl rfl rfl
    · exact hw.set rfl hdec hacc rfl rfl rfl
    · exact hw.set rfl hlong (wrap_lt _ _) rfl rfl rfl
  | dashExt =>
    simp only [tickTransition, hs, tickDashExt]
    split_ifs
    · exact hw.set rfl hrearm hacc rfl rfl rfl
    · exact hw.set rfl hdec hacc rfl rfl rfl
    · exact hw.set rfl hlong hacc rfl rfl rfl
  | symbolGap =>
    simp only [tickTransition, hs, tickSymbolGap]
    split_ifs
    · exact hw.set rfl hshort hacc rfl rfl rfl
    · exact hw.set rfl hgap hacc rfl rfl rfl
    · exact hw.set rfl hdec hacc rfl rfl rfl
  | charGap =>
    simp only [tickTransition, hs, tickCharGap, charGapExpiry]
    split_ifs
    · exact hw.set rfl hshort hone rfl rfl rfl
    · split
      · exact ⟨hgrace, hone, hpushed⟩
      · exact hw.set rfl (Nat.two_pow_pos _) hacc rfl rfl rfl
    · exact hw.set rfl hdec hacc rfl rfl rfl

/-- Every transition leads to a state that is as 10_state.md R36 has it. -/
theorem tickTransition_timingOk {s : State} (hl : configLegal s.cfg = true) (ht : TimingOk s) (p : Bool) :
    TimingOk (tickTransition p s) := by
  obtain ⟨-, ⟨hshort, hshort'⟩, ⟨hlong, hlong'⟩, ⟨hrearm, hrearm'⟩, ⟨hgap, hgap'⟩, -, hgrace⟩ :=
    (configLegal_iff _).1 hl
  have hpulse (new : Bool) : TimingOk (startPulse new s) := ⟨rfl, rfl, hshort, le_rfl⟩
  cases hs : s.state with
  | idle =>
    obtain ⟨hen, hcd, hacc⟩ : s.toneEn = false ∧ s.cd ≤ s.cfg.tGrace ∧
        (s.acc = 1 ∨ (s.cfg.gapForm = .combined ∧ s.cd = 0)) := by simpa only [TimingOk, hs] using ht
    simp only [tickTransition, hs, tickIdle]
    split_ifs with _ hne hpending
    · exact hpulse true
    · rw [decrement_of_pos (by omega) (by omega)]
      exact ⟨hen, (Nat.sub_le _ _).trans hcd, hacc.imp_right fun ⟨_, hzero⟩ => absurd hzero hne⟩
    · simpa [TimingOk, hs] using hen
    · exact ht
  | dotOrDash =>
    obtain ⟨hen, hlvl, hpos, hcd⟩ : s.toneEn = true ∧ s.toneLvl = .dot ∧ 1 ≤ s.cd ∧ s.cd ≤ s.cfg.tShort := by
      simpa only [TimingOk, hs] using ht
    simp only [tickTransition, hs, tickDotOrDash]
    split_ifs with _ hexp
    · exact ⟨hen, rfl, hrearm, le_rfl⟩
    · exact ⟨hen, hlvl, decrement_in_range hshort' hpos hcd hexp⟩
    · exact ⟨rfl, hlong, le_rfl⟩
  | dashExt =>
    obtain ⟨hen, hlvl, hpos, hcd⟩ : s.toneEn = true ∧ s.toneLvl = .dash ∧ 1 ≤ s.cd ∧ s.cd ≤ s.cfg.tDashRearm := by
      simpa only [TimingOk, hs] using ht
    simp only [tickTransition, hs, tickDashExt]
    split_ifs with _ hexp
    · exact ⟨hen, hlvl, hrearm, le_rfl⟩
    · exact ⟨hen, hlvl, decrement_in_range hrearm' hpos hcd hexp⟩
    · exact ⟨rfl, hlong, le_rfl⟩
  | symbolGap =>
    obtain ⟨hen, hpos, hcd⟩ : s.toneEn = false ∧ 1 ≤ s.cd ∧ s.cd ≤ s.cfg.tLong := by
      simpa only [TimingOk, hs] using ht
    simp only [tickTransition, hs, tickSymbolGap]
    split_ifs with _ hexp
    · exact hpulse false
    · exact ⟨hen, hgap, le_rfl⟩
    · exact ⟨hen, decrement_in_range hlong' hpos hcd hexp⟩
  | charGap =>
    obtain ⟨hen, hpos, hcd⟩ : s.toneEn = false ∧ 1 ≤ s.cd ∧ s.cd ≤ s.cfg.tCharGap := by
      simpa only [TimingOk, hs] using ht
    simp only [tickTransition, hs, tickCharGap, charGapExpiry]
    split_ifs with _ hexp
    · exact hpulse true
    · split
      · exact ⟨hen, le_rfl, .inl rfl⟩
      · next hform => exact ⟨hen, Nat.zero_le _, .inr ⟨hform, rfl⟩⟩
    · exact ⟨hen, decrement_in_range hgap' hpos hcd hexp⟩

theorem Inv.tick {s : State} (hi : Inv s) (p : Bool) : Inv (tickShown (tickTransition p s)) := by
  obtain ⟨hcfg, -⟩ := tickTransition_ring p s
  have hl : configLegal (tickTransition p s).cfg = true := hcfg ▸ hi.legal
  exact .of_timingOk hl (tickTransition_widthsOk hi.legal hi.widths p)
    (tickTransition_timingOk hi.legal hi.timingOk p) rfl

/-! ### The other operations keep it, and RESET establishes it -/

/-- The state after RESET is one of the invariant, whatever stood before (92_eei_decisions.md D11). -/
theorem Inv.of_exec_reset {s t : State} (hl : configLegal s.cfg = true) (h : exec .reset s = .next t) : Inv t := by
  cases h
  refine .of_timingOk hl ⟨Nat.two_pow_pos _, one_lt_two_pow_wPc hl, Nat.two_pow_pos _, Nat.two_pow_pos _, ?_⟩
    ⟨rfl, Nat.zero_le _, .inl rfl⟩ rfl
  exact unspecifiedRing_slot_lt s.cfg.wPc s.freeCounter

/-- Every operation keeps the invariant; of the consumer's, the read cursor's width is all there is to check. -/
theorem Inv.of_exec {i : Instr} {s t : State} (hi : Inv s) (h : exec i s = .next t) : Inv t := by
  obtain ⟨k, -, rfl⟩ | ⟨-, ht⟩ | ⟨rfl, -⟩ := exec_next_cases h
  · exact hi.tick _
  · obtain ⟨hcd, hacc, hwr, hrd, hring⟩ := hi.widths
    have hrd' : t.rd < 2 ^ s.cfg.wCur := by
      by_cases hkept : t.rd = s.rd
      · rwa [hkept]
      · obtain rfl | ⟨-, -, hnext⟩ := exec_rd_cases h hkept
        · cases h
          exact Nat.two_pow_pos _
        · rw [hnext]
          exact wrap_lt _ _
    rw [ht]
    exact ⟨hi.legal, ⟨hcd, hacc, hwr, hrd', hring⟩, hi.tone, hi.level, hi.countdown, hi.idle, hi.port⟩
  · exact .of_exec_reset hi.legal h

/-- Settles O18: a step leaves the hardware, or does to it what one operation does, and every operation keeps the
invariant. -/
theorem everyStepKeepsTheInvariant : Obligations.EveryStepKeepsTheInvariant := by
  unfold Obligations.EveryStepKeepsTheInvariant
  intro s t hi h
  obtain heq | ⟨i, rest, u, -, hu, heq⟩ := step_hardware_cases h
  · exact hi.of_hardware_eq heq
  · have htaken : Inv { s with pending := rest } := hi.of_hardware_eq rfl
    exact (htaken.of_exec hu).of_hardware_eq heq

/-- Settles O19: the registers RESET writes are those of the invariant. -/
theorem powerCycleEstablishesTheInvariant : Obligations.PowerCycleEstablishesTheInvariant := by
  unfold Obligations.PowerCycleEstablishesTheInvariant
  exact fun s hl => ⟨_, rfl, .of_exec_reset hl rfl⟩

/-- Settles O17: IDLE, with nothing pending and the tone off. -/
theorem invariantHoldsAtReset : Obligations.InvariantHoldsAtReset := by
  unfold Obligations.InvariantHoldsAtReset
  exact .of_timingOk default_legal (by decide) ⟨rfl, Nat.zero_le _, .inl rfl⟩ rfl

/-- Settles O14: the fields of the definition, one by one. -/
theorem resetStateHoldsTheSpecifiedValues : Obligations.ResetStateHoldsTheSpecifiedValues := by
  unfold Obligations.ResetStateHoldsTheSpecifiedValues
  decide

/-- Settles O16: RESET writes none of the fields that stay, and its slots are the free values of its number. -/
theorem resetOperationLeavesTheRest : Obligations.ResetOperationLeavesTheRest := by
  unfold Obligations.ResetOperationLeavesTheRest
  rintro s _ ⟨⟩
  exact ⟨unspecifiedRing_slot s.cfg.wPc s.freeCounter, rfl, rfl, rfl, rfl, rfl, rfl, rfl, rfl⟩

end Sys2Proof.Machine
end

section
/-! PROOFS. When a step completes and what it refuses (00_scope.md R7; 60_exceptions.md R200, R201, R206;
70_reset_and_hazards.md R222), and the word at the head of the total order (20_memory.md R60). -/

namespace Sys2Proof.Machine

/-! ### Operations complete -/

/-- No operation has a failure outcome (60_exceptions.md R200). -/
theorem exec_completes (i : Instr) (s : State) : ∃ t, exec i s = .next t := by
  cases i with
  | tick k => exact ⟨_, rfl⟩
  | pop =>
    by_cases he : s.rd = s.wr
    · exact ⟨_, exec_pop_empty he⟩
    · exact ⟨_, exec_pop_some he⟩
  | rdwc => exact ⟨_, rfl⟩
  | decode c => exact ⟨_, rfl⟩
  | reset => exact ⟨_, rfl⟩

/-- Settles O11: operation by operation. -/
theorem everyOperationCompletes : Obligations.EveryOperationCompletes := by
  unfold Obligations.EveryOperationCompletes
  exact exec_completes

theorem consumerStep_completes (i : Instr) (s : State) : ∃ t, consumerStep i s = .next t := by
  obtain ⟨t, ht⟩ := exec_completes i s
  exact ⟨_, consumerStep_of_next ht⟩

/-! ### The head of the total order -/

/-- A word that only the consumer issues, while its loop runs (60_exceptions.md R206). -/
theorem secondConsumer_eq_true_iff {i : Instr} {s : State} :
    secondConsumer i s = true ↔ s.looping = true ∧ (i = .pop ∨ i = .rdwc) := by
  cases i <;> simp [secondConsumer, consumerOnly, issuers]

/-- The step of a legal configuration takes the head of the total order. -/
theorem step_of_pending {s : State} {m : Move} {rest : List Move} (hl : configLegal s.cfg = true)
    (hp : s.pending = m :: rest) : step s = takeMove m { s with pending := rest } := by
  simp [step, stepOnce, hl, takeNext, hp]

/-- With nothing left in the total order it changes nothing (log 3). -/
theorem step_of_pending_nil {s : State} (hl : configLegal s.cfg = true) (hp : s.pending = []) : step s = .next s := by
  simp [step, stepOnce, hl, takeNext, hp]

/-- An illegal configuration is refused, whatever comes next (00_scope.md R7; log 5). -/
theorem step_of_illegal {s : State} (hl : configLegal s.cfg ≠ true) : step s = .refused .illegalConfiguration :=
  if_neg hl

/-- Taking an item completes, or it is a second consumer's word, or a turn of a loop that was not started. -/
theorem takeMove_outcome (m : Move) (s : State) :
    (∃ t, takeMove m s = .next t) ∨
      (takeMove m s = .refused .secondConsumer ∧ s.looping = true ∧
        ∃ w, m = .word w ∧ (decodeWord s.cfg.wPc w = .ok .pop ∨ decodeWord s.cfg.wPc w = .ok .rdwc)) ∨
      (takeMove m s = .refused .consumerNotStarted ∧ m = .consumerTurn ∧ s.looping = false) := by
  cases m with
  | word w =>
    simp only [takeMove, takeWord]
    cases hd : decodeWord s.cfg.wPc w with
    | error r => exact .inl ⟨_, rfl⟩
    | ok i =>
      dsimp only
      split_ifs with hsecond hloop
      · obtain ⟨hloop, hi⟩ := secondConsumer_eq_true_iff.1 hsecond
        exact .inr (.inl ⟨rfl, hloop, w, rfl, hi.imp (fun h => by rw [hd, h]) fun h => by rw [hd, h]⟩)
      · exact .inl (exec_completes i s)
      · exact .inl (consumerStep_completes i s)
  | displayInit => exact .inl ⟨_, rfl⟩
  | consumerStart => exact .inl ⟨_, rfl⟩
  | consumerTurn =>
    simp only [takeMove]
    split_ifs with hloop
    · exact .inl (consumerStep_completes _ s)
    · exact .inr (.inr ⟨rfl, trivial, by simpa using hloop⟩)

/-- A step of a legal configuration completes, or the host broke one of its two duties. -/
theorem step_outcome {s : State} (hl : configLegal s.cfg = true) :
    (∃ t, step s = .next t) ∨
      (step s = .refused .secondConsumer ∧ s.looping = true ∧ ∃ w rest, s.pending = .word w :: rest ∧
        (decodeWord s.cfg.wPc w = .ok .pop ∨ decodeWord s.cfg.wPc w = .ok .rdwc)) ∨
      (step s = .refused .consumerNotStarted ∧ s.looping = false ∧ ∃ rest, s.pending = .consumerTurn :: rest) := by
  cases hp : s.pending with
  | nil => exact .inl ⟨s, step_of_pending_nil hl hp⟩
  | cons m rest =>
    rw [step_of_pending hl hp]
    obtain hnext | ⟨hrefused, hloop, w, rfl, hd⟩ | ⟨hrefused, rfl, hloop⟩ :=
      takeMove_outcome m { s with pending := rest }
    · exact .inl hnext
    · exact .inr (.inl ⟨hrefused, hloop, w, rest, rfl, hd⟩)
    · exact .inr (.inr ⟨hrefused, hloop, rest, rfl⟩)

/-- Settles O12: the two refusals of a legal configuration are the two broken duties. -/
theorem stepStopsOnlyOnABrokenHostDuty : Obligations.StepStopsOnlyOnABrokenHostDuty := by
  unfold Obligations.StepStopsOnlyOnABrokenHostDuty
  intro s hl hturn hword
  obtain hnext | ⟨-, hloop, w, rest, hp, hd⟩ | ⟨-, hloop, rest, hp⟩ := step_outcome hl
  · exact hnext
  · obtain ⟨hpop, hrdwc⟩ := hword w rest hp hloop
    exact absurd hd (not_or.2 ⟨hpop, hrdwc⟩)
  · exact absurd (hturn rest hp) (by simp [hloop])

/-- Settles O10: a threshold out of range is an illegal configuration, and with the default widths five thresholds within
range are a legal one, whose steps have other refusals only. -/
theorem thresholdOutOfRangeIsRefused : Obligations.ThresholdOutOfRangeIsRefused := by
  unfold Obligations.ThresholdOutOfRangeIsRefused
  refine ⟨fun s ⟨t, ht, hout⟩ => step_of_illegal fun hl => ?_, fun a b c d e g hin s hcfg => ?_⟩
  · obtain ⟨-, hthresholds⟩ := (configLegal_iff _).1 hl
    simp only [List.mem_cons, List.not_mem_nil, or_false] at ht
    obtain rfl | rfl | rfl | rfl | rfl := ht <;> omega
  · have hl : configLegal s.cfg = true := by
      simp only [List.forall_mem_cons, List.not_mem_nil, false_imp_iff, implies_true, and_true] at hin
      rw [hcfg, configLegal_iff]
      simp only [Config.default]
      omega
    obtain ⟨t, h⟩ | ⟨h, -⟩ | ⟨h, -⟩ := step_outcome hl <;> rw [h] <;> nofun

/-- Settles O8: the total order has no item to take. -/
theorem idleStepChangesNothing : Obligations.IdleStepChangesNothing := by
  unfold Obligations.IdleStepChangesNothing
  exact fun _ => step_of_pending_nil

/-- Settles O6: the word is taken off and refused. -/
theorem refusedWordOnlySetsTheMark : Obligations.RefusedWordOnlySetsTheMark := by
  unfold Obligations.RefusedWordOnlySetsTheMark
  intro s w rest r hl hp hr
  rw [step_of_pending hl hp]
  simp [takeMove, takeWord, hr, refuseWord, noResponse]

/-- Settles O9: the loop is the one consumer, so the word comes from a second one. -/
theorem secondConsumerIsRefused : Obligations.SecondConsumerIsRefused := by
  unfold Obligations.SecondConsumerIsRefused
  intro s w rest i hl hp hd hloop hi
  have hsecond : secondConsumer i { s with pending := rest } = true := secondConsumer_eq_true_iff.2 ⟨hloop, hi⟩
  rw [step_of_pending hl hp]
  simp [takeMove, takeWord, hd, hsecond]

/-- Settles O49: each move is the head of the total order and does what it is defined to. -/
theorem hostMovesDoOnlyWhatTheySay : Obligations.HostMovesDoOnlyWhatTheySay := by
  unfold Obligations.HostMovesDoOnlyWhatTheySay
  intro s rest hl
  refine ⟨fun hp => ?_, fun hp => ?_, fun hp hloop => ?_⟩
  · exact step_of_pending hl hp
  · exact step_of_pending hl hp
  · rw [step_of_pending hl hp]
    simp [takeMove, hloop]

/-! ### The word at the head -/

/-- Settles O4: a word that is not refused is executed, and the consumer's display calls, which follow while the loop does
not run, touch the display log and the consumer's place only. -/
theorem stepRunsTheDecodedInstruction : Obligations.StepRunsTheDecodedInstruction := by
  unfold Obligations.StepRunsTheDecodedInstruction
  refine ⟨fun s w rest i hl hp hd => ⟨fun hloop hpop hrdwc => step_word_looping hl hp hd hloop ⟨hpop, hrdwc⟩,
    step_word hl hp hd⟩, fun i t => ⟨?_, ?_⟩⟩
  · rw [renderStep_frame]
  · rintro (rfl | rfl | rfl) <;> rfl

/-- A row's word of 16 bits is the word itself. -/
theorem tableWord_sixteen {w : Nat} (hw : w < 2 ^ 16) : tableWord 16 w = BitVec.ofNat 16 w := by
  rw [tableWord, Nat.mod_eq_of_lt hw]

/-- Placing a word that comes from no second consumer only puts it at the head (log 2). -/
theorem placeWord_of_not_secondConsumer {w : Word} {i : Instr} {s : State} (hd : decodeWord s.cfg.wPc w = .ok i)
    (h : secondConsumer i s = false) : placeWord w s = { s with pending := .word w :: s.pending } := by
  simp [placeWord, hd, h]

/-- Placing the consumer's own word stops its loop, if it runs (log 2). -/
theorem placeWord_of_consumer {w : Word} {i : Instr} {s : State} (hd : decodeWord s.cfg.wPc w = .ok i)
    (hi : i = .pop ∨ i = .rdwc) : placeWord w s = { s with pending := .word w :: s.pending, looping := false } := by
  cases hloop : s.looping with
  | false =>
    rw [placeWord_of_not_secondConsumer hd (by simp [secondConsumer, hloop]), ← hloop]
  | true =>
    have hsecond : secondConsumer i s = true := secondConsumer_eq_true_iff.2 ⟨hloop, hi⟩
    simp [placeWord, hd, hsecond]

/-- Settles O5: the placed word is the head of the total order, and behind it stands the total order as it was. -/
theorem placedWordRunsFirst : Obligations.PlacedWordRunsFirst := by
  unfold Obligations.PlacedWordRunsFirst
  intro s w i hl hw hd
  rw [State.withFetchWord, tableWord_sixteen hw]
  refine ⟨fun hloop hpop hrdwc => ?_, fun hloop => ?_, fun hi => ?_⟩
  · have hnot : secondConsumer i s = false := by
      rw [← Bool.not_eq_true, secondConsumer_eq_true_iff]
      exact fun ⟨_, hi⟩ => hi.elim hpop hrdwc
    rw [placeWord_of_not_secondConsumer hd hnot]
    exact step_word_looping hl rfl hd hloop ⟨hpop, hrdwc⟩
  · rw [placeWord_of_not_secondConsumer hd (by simp [secondConsumer, hloop])]
    exact step_word hl rfl hd hloop
  · rw [placeWord_of_consumer hd hi]
    exact step_word hl rfl hd rfl

end Sys2Proof.Machine
end

section
/-! PROOFS. TICK: the combined form (93_implementation_defined.md I3), the tone port (41_timing_fsm.md R109), the grace
period (70_reset_and_hazards.md R231), and what TICK and the consumer cannot see of each other (10_state.md R28, R33). -/

namespace Sys2Proof.Machine

/-- The expiry in CHAR_GAP, combined form: only the entry to IDLE (93_implementation_defined.md I3). -/
theorem exec_expiry_charGap_combined {s : State} (hs : s.state = .charGap) (hcd : s.cd = 1) (hw : 1 ≤ s.cfg.wCd)
    (hf : s.cfg.gapForm = .combined) :
    exec (.tick 1#1) s = .next (tickShown { s with cd := 0, state := .idle }) := by
  simp [exec_tick_eq_tickShown, tickTransition, hs, tickCharGap, charGapExpiry, hcd, hf, decrement_one hw]

/-- Settles O25: the expiry, then IDLE's two samples with a pending character. -/
theorem tickInCharGapCombined : Obligations.TickInCharGapCombined := by
  unfold Obligations.TickInCharGapCombined
  intro s hs hf hcd hw
  exact ⟨_, exec_expiry_charGap_combined hs hcd hw hf, rfl,
    fun hacc => ⟨_, ringHas_push s.acc s, exec_release_idle_pending rfl rfl hacc⟩, exec_press_new (.inl rfl)⟩

/-! ### The tone port -/

/-- An operation that is no TICK leaves the log of the port, and but for RESET the port (log 16). -/
theorem exec_keeps_tones {i : Instr} {s t : State} (h : exec i s = .next t) (hi : ∀ k, i ≠ .tick k) :
    t.tones = s.tones ∧ (i ≠ .reset → t.tonePort = s.tonePort) := by
  obtain ⟨k, rfl, -⟩ | ⟨-, ht⟩ | ⟨rfl, hreset⟩ := exec_next_cases h
  · exact absurd rfl (hi k)
  · rw [ht]
    exact ⟨rfl, fun _ => rfl⟩
  · cases hreset
    exact ⟨rfl, fun hr => absurd rfl hr⟩

/-- Settles O26: TICK shows its new tone bits and logs them, the other operations do not, and the oscillator's preset is
the level's. -/
theorem tonePortFollowsTheTick : Obligations.TonePortFollowsTheTick := by
  unfold Obligations.TonePortFollowsTheTick
  refine ⟨?_, fun i s t h hzero hone => exec_keeps_tones h fun k => ?_, ?_⟩
  · rintro k s _ ⟨⟩
    refine ⟨rfl, ?_⟩
    rw [tickTransition_frame]
    rfl
  · obtain rfl | rfl := BitVec.eq_zero_or_eq_one k
    · exact hzero
    · exact hone
  · rintro ⟨_ | _, _ | _⟩ <;> rfl

/-! ### The grace period -/

/-- Every sequence of operations runs to its end. -/
theorem runOps_completes (is : List Instr) (s : State) : ∃ t, runOps is s = .next t := by
  induction is generalizing s with
  | nil => exact ⟨s, rfl⟩
  | cons i is ih =>
    obtain ⟨u, hu⟩ := exec_completes i s
    rw [runOps_cons_of_next hu]
    exact ih u

/-- Released in IDLE with nothing pending, a tick changes the countdown only, whatever it holds (41_timing_fsm.md
R104). -/
theorem exec_release_idle_cd {s : State} (hs : s.state = .idle) (hacc : s.acc = 1) (c : Nat) :
    ∃ c', exec (.tick 1#1) { s with cd := c } = .next (tickShown { s with cd := c' }) := by
  by_cases hc : c = 0
  · exact ⟨c, exec_release_idle_settled hs hc hacc⟩
  · refine ⟨decrement s.cfg.wCd c, ?_⟩
    simp [exec_tick_eq_tickShown, tickTransition, hs, tickIdle, hc]

/-- Settles O34, by induction on the samples: a release leaves IDLE states that differ in the countdown only, and a press
arms it anew, so that from there the runs are one. -/
theorem gracePeriodIsUnobservable : Obligations.GracePeriodIsUnobservable := by
  unfold Obligations.GracePeriodIsUnobservable
  intro s c₁ c₂ keys hs hacc
  induction keys generalizing s c₁ c₂ with
  | nil => exact ⟨_, _, rfl, rfl, rfl, fun hne => absurd hs hne, rfl⟩
  | cons k keys ih =>
    simp only [List.map_cons]
    obtain rfl | rfl := BitVec.eq_zero_or_eq_one k
    · have hpress (c : Nat) : exec (.tick 0#1) { s with cd := c } = .next (tickShown (startPulse true s)) :=
        exec_press_new (s := { s with cd := c }) (.inl hs)
      obtain ⟨t, ht⟩ := runOps_completes (keys.map .tick) (tickShown (startPulse true s))
      rw [runOps_cons_of_next (hpress c₁), runOps_cons_of_next (hpress c₂)]
      exact ⟨t, t, ht, ht, rfl, fun _ => rfl, rfl⟩
    · obtain ⟨d₁, h₁⟩ := exec_release_idle_cd hs hacc c₁
      obtain ⟨d₂, h₂⟩ := exec_release_idle_cd hs hacc c₂
      rw [runOps_cons_of_next h₁, runOps_cons_of_next h₂]
      exact ih (tickShown s) d₁ d₂ hs hacc

/-! ### What the producer and the consumer cannot see -/

/-- No transition reads or writes the read cursor (10_state.md R28). -/
theorem tickTransition_setRd (p : Bool) (s : State) (r : Nat) :
    tickTransition p { s with rd := r } = { tickTransition p s with rd := r } := by
  simp only [tickTransition]
  split
  · simp only [tickIdle]
    split_ifs <;> rfl
  · simp only [tickDotOrDash]
    split_ifs <;> rfl
  · simp only [tickDashExt]
    split_ifs <;> rfl
  · simp only [tickSymbolGap]
    split_ifs <;> rfl
  · simp only [tickCharGap, charGapExpiry]
    split_ifs
    · rfl
    · split <;> rfl
    · rfl

/-- Settles O42: the transition takes the read cursor along. -/
theorem pushNeverReadsTheReadCursor : Obligations.PushNeverReadsTheReadCursor := by
  unfold Obligations.PushNeverReadsTheReadCursor
  intro k s r
  refine ⟨_, exec_tick_eq_tickShown k s, ?_⟩
  rw [exec_tick_eq_tickShown, tickTransition_setRd]
  rfl

/-- Settles O43: the answers are made of the cursors, the ring and the table only. -/
theorem consumerOperationsCannotSeeHiddenRegisters : Obligations.ConsumerOperationsCannotSeeHiddenRegisters := by
  unfold Obligations.ConsumerOperationsCannotSeeHiddenRegisters
  rintro i s x c a (rfl | rfl | ⟨code, rfl⟩)
  · by_cases he : s.rd = s.wr
    · exact ⟨_, exec_pop_empty he, rfl, rfl, rfl, exec_pop_empty he⟩
    · exact ⟨_, exec_pop_some he, rfl, rfl, rfl, exec_pop_some he⟩
  · exact ⟨_, exec_rdwc s, rfl, rfl, rfl, exec_rdwc _⟩
  · exact ⟨_, exec_decode code s, rfl, rfl, rfl, exec_decode code _⟩

end Sys2Proof.Machine
end

section
/-! PROOFS. Pulse codes (30_encoding.md R71), the accumulator that holds them (41_timing_fsm.md R102, R116), and the decode
table (42_decode_lut.md R140 to R142). -/

namespace Sys2Proof.Machine

/-! ### The bits of a list of pulses -/

/-- One pulse more, without wrap (30_encoding.md R71). -/
abbrev pulseShift (code : Nat) (p : Bool) : Nat := 2 * code + p.toNat

/-- One pulse more, as the accumulator takes it (41_timing_fsm.md R102). -/
abbrev pulseAppend (wPc acc : Nat) (p : Bool) : Nat := if p then dashAppend wPc acc else dotAppend wPc acc

theorem pulseAppend_eq (wPc acc : Nat) (p : Bool) : pulseAppend wPc acc p = pulseShift acc p % 2 ^ wPc := by
  cases p
  · exact dotAppend_eq wPc acc
  · exact dashAppend_eq wPc acc

/-- The code before the pulses stands above them. -/
theorem foldl_pulseShift_eq (code : Nat) (pulses : List Bool) :
    pulses.foldl pulseShift code = code * 2 ^ pulses.length + pulses.foldl pulseShift 0 := by
  induction pulses generalizing code with
  | nil => simp
  | cons p ps ih =>
    rw [List.foldl_cons, List.foldl_cons, ih (pulseShift code p), ih (pulseShift 0 p), List.length_cons]
    ring

theorem foldl_pulseShift_zero_lt (pulses : List Bool) : pulses.foldl pulseShift 0 < 2 ^ pulses.length := by
  induction pulses with
  | nil => exact Nat.one_pos
  | cons p ps ih =>
    rw [List.foldl_cons, foldl_pulseShift_eq, List.length_cons, pow_succ]
    cases p <;> simp [pulseShift] <;> omega

/-- The pulses as a sum of bits, the first one highest. -/
theorem foldl_pulseShift_zero_eq_sum (pulses : List Bool) :
    pulses.foldl pulseShift 0 =
      ((List.range pulses.length).map fun k =>
        (pulses.getD k false).toNat * 2 ^ (pulses.length - (k + 1))).sum := by
  induction pulses with
  | nil => rfl
  | cons p ps ih =>
    rw [List.foldl_cons, foldl_pulseShift_eq, ih, List.length_cons, List.range_succ_eq_map]
    simp [Function.comp_def]

theorem pulseCode_eq (pulses : List Bool) : pulseCode pulses = 2 ^ pulses.length + pulses.foldl pulseShift 0 := by
  rw [← Nat.one_mul (2 ^ pulses.length)]
  exact foldl_pulseShift_eq 1 pulses

theorem pulseCode_concat (pulses : List Bool) (p : Bool) :
    pulseCode (pulses ++ [p]) = 2 * pulseCode pulses + p.toNat :=
  List.foldl_concat pulseShift 1 p pulses

theorem one_le_pulseCode (pulses : List Bool) : 1 ≤ pulseCode pulses := by
  rw [pulseCode_eq]
  have := Nat.two_pow_pos pulses.length
  omega

/-! ### The accumulator -/

/-- The accumulator is the code of the pulses modulo 2^W_PC. -/
theorem foldl_pulseAppend_mod (wPc acc : Nat) (pulses : List Bool) :
    pulses.foldl (pulseAppend wPc) acc % 2 ^ wPc = pulses.foldl pulseShift acc % 2 ^ wPc := by
  induction pulses generalizing acc with
  | nil => rfl
  | cons p ps ih =>
    rw [List.foldl_cons, List.foldl_cons, ih, pulseAppend_eq, foldl_pulseShift_eq, foldl_pulseShift_eq (pulseShift acc p)]
    simp [Nat.add_mod, Nat.mul_mod]

theorem foldl_pulseAppend_lt {wPc acc : Nat} (hacc : acc < 2 ^ wPc) (pulses : List Bool) :
    pulses.foldl (pulseAppend wPc) acc < 2 ^ wPc := by
  induction pulses generalizing acc with
  | nil => exact hacc
  | cons p ps ih =>
    refine ih ?_
    rw [pulseAppend_eq]
    exact wrap_lt _ _

theorem foldl_pulseAppend_eq {wPc acc : Nat} (hacc : acc < 2 ^ wPc) (pulses : List Bool) :
    pulses.foldl (pulseAppend wPc) acc = pulses.foldl pulseShift acc % 2 ^ wPc := by
  rw [← foldl_pulseAppend_mod, Nat.mod_eq_of_lt (foldl_pulseAppend_lt hacc pulses)]

/-! ### The table -/

/-- The rows of the look-up are those of 42_decode_lut.md R141. -/
theorem lutRows_eq : lutLetters ++ lutDigits = tableRows.map fun row => (row.1, row.2.2.toNat) := by decide

/-- Every code of the table has at most five pulses. -/
theorem tableRows_code_lt : ∀ row ∈ tableRows, row.1 < 64 := by decide

theorem tableRows_nodup : (tableRows.map (·.1)).Nodup := by decide

theorem tableRows_pulseCode : ∀ row ∈ tableRows, pulseCode (patternPulses row.2.1) = row.1 := by decide

/-- A row's code reads the row's character (42_decode_lut.md R141). -/
theorem tableChar_of_row : ∀ row ∈ tableRows, tableChar row.1 = row.2.2.toNat := by decide

/-- A code of no row reads `'*'` (42_decode_lut.md R142). -/
theorem tableChar_of_no_row {code : Nat} (h : ∀ row ∈ tableRows, code ≠ row.1) : tableChar code = 0x2A := by
  have hnone : (lutLetters ++ lutDigits).lookup code = none := by
    rw [lutRows_eq, List.lookup_eq_none_iff]
    intro entry hentry
    obtain ⟨row, hrow, rfl⟩ := List.mem_map.1 hentry
    simpa using h row hrow
  rw [tableChar, hnone]
  rfl

/-- A code of six pulses or more has no row, and reads `'*'` where that fits (41_timing_fsm.md R116). -/
theorem lutRead_of_long {wCh code : Nat} (hcode : 64 ≤ code) (hw : 6 ≤ wCh) : lutRead wCh code = 0x2A := by
  have hstar : tableChar code = 0x2A := tableChar_of_no_row fun row hrow => by
    have hlt := tableRows_code_lt row hrow
    omega
  have hfits : 2 ^ 6 ≤ 2 ^ wCh := Nat.pow_le_pow_right (by decide) hw
  rw [lutRead, hstar, fitChar_of_lt (by omega)]

/-- Settles O35: the rows by evaluation, and the look-up of a code with a row and of one without. -/
theorem decodeAnswersTheTable : Obligations.DecodeAnswersTheTable := by
  unfold Obligations.DecodeAnswersTheTable
  refine ⟨rfl, tableRows_nodup, tableRows_pulseCode, fun code s ch hrow => ?_⟩
  have hchar : tableChar code.toNat = ch := by
    obtain ⟨row, hmem, hcode, rfl⟩ | ⟨hnone, rfl⟩ := hrow
    · rw [hcode, tableChar_of_row row hmem]
    · exact tableChar_of_no_row hnone
  refine ⟨fun hfits => ?_, fun hwide => ?_⟩
  · rw [exec_decode, lutRead, hchar, fitChar_of_lt hfits]
    rfl
  · rw [exec_decode, lutRead, hchar, fitChar_of_le hwide]
    rfl

/-- Settles O31: the code of the pulses modulo 2^W_PC is the code while it fits, and its last W_PC pulses after that. -/
theorem longSymbolsKeepTheLastBits : Obligations.LongSymbolsKeepTheLastBits := by
  unfold Obligations.LongSymbolsKeepTheLastBits
  intro wPc pulses hw
  have hacc : pulses.foldl (pulseAppend wPc) 1 = pulseCode pulses % 2 ^ wPc :=
    foldl_pulseAppend_eq (Nat.one_lt_two_pow (by omega)) pulses
  refine ⟨fun hlen => ?_, ?_⟩
  · have hlt := foldl_pulseShift_zero_lt pulses
    have hcode := pulseCode_eq pulses
    have hfits : 2 ^ (pulses.length + 1) ≤ 2 ^ wPc := Nat.pow_le_pow_right (by decide) hlen
    rw [pow_succ] at hfits
    have heq : pulses.foldl (pulseAppend wPc) 1 = pulseCode pulses := by
      rw [hacc, Nat.mod_eq_of_lt (by omega)]
    refine ⟨heq, ?_⟩
    rw [heq, pow_succ]
    refine ⟨by omega, by omega, fun hlong => ?_⟩
    have h64 : 2 ^ 6 ≤ 2 ^ pulses.length := Nat.pow_le_pow_right (by decide) hlong
    have hcode64 : 64 ≤ pulseCode pulses := by omega
    exact ⟨hcode64, fun _ => lutRead_of_long hcode64⟩
  · rintro early late rfl rfl
    have hlate : pulseCode (early ++ late) = pulseCode early * 2 ^ late.length + late.foldl pulseShift 0 :=
      List.foldl_append.trans (foldl_pulseShift_eq _ late)
    refine hacc.trans ?_
    rw [hlate, Nat.mul_add_mod_self_right, Nat.mod_eq_of_lt (foldl_pulseShift_zero_lt late)]

/-! ### The pulses come back out of the code -/

/-- The last bit of a code is its last pulse; the others are those of the code before (30_encoding.md R71). -/
theorem codePulses_shift {code : Nat} (hc : 1 ≤ code) (p : Bool) :
    codePulses (2 * code + p.toNat) = (codePulses code).map (· ++ [p]) := by
  have hbit : 2 * code + p.toNat = Nat.bit p code := by cases p <;> simp [Nat.bit_val]
  have hlog : Nat.log2 (Nat.bit p code) = Nat.log2 code + 1 := by
    rw [← hbit, Nat.log2_eq_iff (by omega), pow_succ, pow_succ]
    have hlow := Nat.log2_self_le (n := code) (by omega)
    have hhigh := Nat.lt_log2_self (n := code)
    cases p <;> simp <;> omega
  have hne : Nat.bit p code ≠ 0 := by omega
  rw [hbit, codePulses, codePulses, if_neg hne, if_neg (by omega), hlog, List.range_succ, List.map_append]
  simp only [Option.map_some, List.map_singleton, Nat.sub_self, Nat.testBit_bit_zero]
  refine congrArg (fun ps => some (ps ++ [p])) (List.map_congr_left fun k hk => ?_)
  have hk' : k < Nat.log2 code := List.mem_range.1 hk
  rw [show Nat.log2 code + 1 - (k + 1) = (Nat.log2 code - (k + 1)) + 1 by omega, Nat.testBit_bit_succ]

theorem codePulses_one : codePulses 1 = some [] := by decide

theorem codePulses_pulseCode (pulses : List Bool) : codePulses (pulseCode pulses) = some pulses := by
  induction pulses using List.reverseRecOn with
  | nil => exact codePulses_one
  | append_singleton ps p ih => rw [pulseCode_concat, codePulses_shift (one_le_pulseCode ps), ih, Option.map_some]

/-- Every code from 1 on is the code of some pulses. -/
theorem exists_pulseCode_eq {c : Nat} (hc : 1 ≤ c) : ∃ pulses, pulseCode pulses = c := by
  induction c using Nat.strongRecOn with
  | ind c ih =>
    obtain rfl | hc' := hc.eq_or_lt
    · exact ⟨[], rfl⟩
    · obtain ⟨ps, hps⟩ := ih (c / 2) (by omega) (by omega)
      refine ⟨ps ++ [c.testBit 0], ?_⟩
      rw [pulseCode_concat, hps, Nat.testBit_zero]
      obtain h | h := Nat.mod_two_eq_zero_or_one c <;> simp [h] <;> omega

/-- Settles O32: the sum, the pulses of a code, the code of its pulses, and the two codes with no pulse. -/
theorem pulseCodeRoundTrip : Obligations.PulseCodeRoundTrip := by
  unfold Obligations.PulseCodeRoundTrip
  refine ⟨fun pulses => ⟨?_, codePulses_pulseCode pulses⟩, fun c hc => ?_, rfl, codePulses_one⟩
  · rw [pulseCode_eq, foldl_pulseShift_zero_eq_sum]
  · obtain ⟨pulses, rfl⟩ := exists_pulseCode_eq hc
    exact ⟨pulses, codePulses_pulseCode pulses, rfl⟩

end Sys2Proof.Machine
end

section
/-! PROOFS. A keyed character, from its first press to its push (41_timing_fsm.md R112, R113, R116). -/

namespace Sys2Proof.Machine

/-- What keying leaves as it was: the parameters and the ring buffer. -/
structure SameRing (s t : State) : Prop where
  cfg : t.cfg = s.cfg
  wr : t.wr = s.wr
  rd : t.rd = s.rd
  ring : t.ring = s.ring

theorem SameRing.trans {s t u : State} (h : SameRing s t) (h' : SameRing t u) : SameRing s u :=
  ⟨h'.cfg.trans h.cfg, h'.wr.trans h.wr, h'.rd.trans h.rd, h'.ring.trans h.ring⟩

/-- A hold of any length: its release appends a dot or a dash, as its length has it (41_timing_fsm.md R112). -/
theorem exists_held_release {s : State} (hl : configLegal s.cfg = true)
    (hs : s.state = .idle ∨ s.state = .symbolGap ∨ s.state = .charGap) {n : Nat} (hn : 1 ≤ n) :
    ∃ u, runOps (held n) s = .next u ∧ SameRing s u ∧ exec (.tick 1#1) u = .next (tickShown (gapEntered
      (pulseAppend s.cfg.wPc (if s.state = .symbolGap then s.acc else 1) (decide (s.cfg.tShort < n))) u)) := by
  obtain ⟨new, hpress, hacc⟩ := exec_press_startPulse hs
  rw [← hacc, pulseAppend_eq]
  by_cases hshort : n ≤ s.cfg.tShort
  · refine ⟨_, runOps_held_dotOrDash hl hpress hn hshort, ⟨rfl, rfl, rfl, rfl⟩, ?_⟩
    rw [decide_eq_false (Nat.not_lt.2 hshort)]
    exact exec_release_dotOrDash rfl
  · obtain ⟨m, rfl⟩ := Nat.exists_eq_add_of_lt (Nat.not_le.1 hshort)
    have hheld := runOps_held_dash hl hpress m
    rw [Nat.add_comm 1 m, ← Nat.add_assoc] at hheld
    refine ⟨_, hheld, ⟨rfl, rfl, rfl, rfl⟩, ?_⟩
    rw [decide_eq_true (by omega)]
    exact exec_release_dashExt rfl

/-- Where a new pulse belongs to the symbol `acc`: a gap of it, or IDLE before its first pulse. -/
def SymbolOpen (acc : Nat) (s : State) : Prop :=
  (s.state = .symbolGap ∧ s.acc = acc) ∨ (s.state = .idle ∧ acc = 1)

theorem SymbolOpen.state {acc : Nat} {s : State} (h : SymbolOpen acc s) :
    s.state = .idle ∨ s.state = .symbolGap ∨ s.state = .charGap := by
  obtain ⟨hs, -⟩ | ⟨hs, -⟩ := h
  · exact .inr (.inl hs)
  · exact .inl hs

theorem SymbolOpen.acc_eq {acc : Nat} {s : State} (h : SymbolOpen acc s) :
    (if s.state = .symbolGap then s.acc else 1) = acc := by
  obtain ⟨hs, hacc⟩ | ⟨hs, hacc⟩ := h <;> simp [hs, hacc]

/-- Whether each keyed pulse is a dash (41_timing_fsm.md R112). -/
abbrev keyedDashes (tShort : Nat) (pulses : List (Nat × Nat)) : List Bool :=
  pulses.map fun p => decide (tShort < p.1)

/-- Pulses with gaps that keep the symbol open append themselves to it, and do nothing else (41_timing_fsm.md R113). -/
theorem exists_runOps_keying {s : State} {acc : Nat} (hl : configLegal s.cfg = true) (hopen : SymbolOpen acc s)
    {pulses : List (Nat × Nat)} (hp : ∀ p ∈ pulses, 1 ≤ p.1 ∧ 1 ≤ p.2 ∧ p.2 ≤ s.cfg.tLong) :
    ∃ t, runOps (keying pulses) s = .next t ∧ SameRing s t ∧
      SymbolOpen ((keyedDashes s.cfg.tShort pulses).foldl (pulseAppend s.cfg.wPc) acc) t := by
  induction pulses generalizing s acc with
  | nil => exact ⟨s, rfl, ⟨rfl, rfl, rfl, rfl⟩, hopen⟩
  | cons p ps ih =>
    obtain ⟨⟨hhold, hgap, hlong⟩, hps⟩ := List.forall_mem_cons.1 hp
    obtain ⟨u, hheld, hsame, hrelease⟩ := exists_held_release hl hopen.state hhold
    rw [hopen.acc_eq] at hrelease
    have hlu : configLegal u.cfg = true := hsame.cfg ▸ hl
    have hsilent := runOps_silent_symbolGap hlu hrelease hgap (hsame.cfg ▸ hlong)
    have hsame' : SameRing s (afterTicks p.2 (u.cfg.tLong + 1 - p.2)
        (gapEntered (pulseAppend s.cfg.wPc acc (decide (s.cfg.tShort < p.1))) u)) :=
      hsame.trans ⟨rfl, rfl, rfl, rfl⟩
    obtain ⟨t, hrun, hst, hsym⟩ := ih (hsame'.cfg ▸ hl) (.inl ⟨rfl, rfl⟩) (hsame'.cfg ▸ hps)
    refine ⟨t, ?_, hsame'.trans hst, ?_⟩
    · rw [keying, List.flatMap_cons, List.append_assoc, runOps_append_of_next hheld, runOps_append_of_next hsilent]
      exact hrun
    · rw [hsame'.cfg] at hsym
      exact hsym

/-- The code a character leaves in its slot (30_encoding.md R71, 41_timing_fsm.md R116). -/
abbrev keyedCode (c : Config) (pulses : List (Nat × Nat)) (last : Nat) : Nat :=
  pulseCode (keyedDashes c.tShort pulses ++ [decide (c.tShort < last)]) % 2 ^ c.wPc

/-- The last pulse appended, the accumulator holds the character's code. -/
theorem pulseAppend_foldl_eq_keyedCode {c : Config} (hl : configLegal c = true) (pulses : List (Nat × Nat)) (last : Nat) :
    pulseAppend c.wPc ((keyedDashes c.tShort pulses).foldl (pulseAppend c.wPc) 1) (decide (c.tShort < last)) =
      keyedCode c pulses last := by
  rw [← List.foldl_concat (pulseAppend c.wPc)]
  exact foldl_pulseAppend_eq (one_lt_two_pow_wPc hl) _

/-- Settles O33: the keying of all pulses but the last, the last one's hold, and the silence that pushes. -/
theorem keyedCharacterIsPushedOnce : Obligations.KeyedCharacterIsPushedOnce := by
  unfold Obligations.KeyedCharacterIsPushedOnce
  intro s pulses last hi hf hs hp hlast
  obtain ⟨u, hkeying, hsu, hopen⟩ := exists_runOps_keying hi.legal (.inr ⟨hs, rfl⟩) hp
  obtain ⟨v, hheld, huv, hrelease⟩ := exists_held_release (hsu.cfg ▸ hi.legal) hopen.state hlast
  rw [hopen.acc_eq, hsu.cfg, pulseAppend_foldl_eq_keyedCode hi.legal] at hrelease
  have hsv := hsu.trans huv
  have hpushed := runOps_silent_pushed (hsv.cfg ▸ hi.legal) hrelease (hsv.cfg ▸ hf) 0
  rw [hsv.cfg] at hpushed
  have hkeyed : runOps (keying pulses ++ held last) s = .next v := by rw [runOps_append_of_next hkeying, hheld]
  have hrun := (runOps_append_of_next hkeyed _).trans hpushed
  have hhas := ringHas_push (keyedCode s.cfg pulses last) v
  rw [hsv.ring, hsv.wr, hsv.cfg, Nat.mod_mod] at hhas
  have hwr : (v.wr + 1) % 2 ^ v.cfg.wCur = (s.wr + 1) % 2 ^ s.cfg.wCur := by rw [hsv.wr, hsv.cfg]
  exact ⟨_, hrun, rfl, rfl, rfl, rfl, hsv.rd, hwr, hhas⟩

end Sys2Proof.Machine
end

section
/-! PROOFS. First in, first out (43_ring_buffer.md R154), and the response of RDWC to any cursor (R155; log 29). -/

namespace Sys2Proof.Machine

/-- Settles O38: the response is the cursor's low 16 bits. -/
theorem rdwcAnswersTheWriteCursor : Obligations.RdwcAnswersTheWriteCursor := by
  unfold Obligations.RdwcAnswersTheWriteCursor
  exact exec_rdwc

/-- With at most 16 codes unread, the next one to be popped is the oldest of them. -/
theorem latestPush_eq_self {p q : Nat} (h : p - q ≤ 16) : latestPush p q = q := by
  unfold latestPush
  omega

/-- No more than 16 codes are unread. -/
def RingHistory.NoOverflow (h : RingHistory) : Prop := h.pushed.length - h.popped.length ≤ 16

/-- An operation on a ring without overflow keeps the order: the codes popped are the first ones pushed. -/
theorem RingHistory.Tracks.apply_prefix {c : Config} {h : RingHistory} (ht : h.Tracks c) (hl : configLegal c = true)
    (hfew : h.NoOverflow) (hpre : h.popped <+: h.pushed) (op : RingOp) : (h.apply op).popped <+: (h.apply op).pushed := by
  cases op with
  | push v => exact hpre.trans (List.prefix_append _ _)
  | pop =>
    by_cases he : h.now.rd = h.now.wr
    · rw [apply_pop_empty he]
      exact hpre
    · have hlt := ht.popped_lt_pushed he
      obtain ⟨t, -, -, -, -, happly⟩ := ht.apply_pop_some hl he
      rw [happly, latestPush_eq_self hfew, List.getD_eq_getElem _ _ hlt]
      exact List.concat_get_prefix hpre hlt

/-- Without overflow after any of the operations, the codes popped are the first ones pushed. -/
theorem popped_prefix_pushed {s : State} {ops : List RingOp} (hl : configLegal s.cfg = true) (hwr : s.wr = 0)
    (hrd : s.rd = 0) (hops : ∀ v, RingOp.push v ∈ ops → v < 2 ^ s.cfg.wPc)
    (hfew : ∀ pre, pre <+: ops → (ringHistory pre s).NoOverflow) :
    (ringHistory ops s).popped <+: (ringHistory ops s).pushed := by
  induction ops using List.reverseRecOn with
  | nil => exact List.prefix_refl _
  | append_singleton ops op ih =>
    have hbefore : ∀ v, RingOp.push v ∈ ops → v < 2 ^ s.cfg.wPc := fun v hv => hops v (List.mem_append_left _ hv)
    rw [ringHistory_append]
    exact (tracks_ringHistory hl hwr hrd hbefore).apply_prefix hl (hfew ops (List.prefix_append _ _))
      (ih hbefore fun pre hpre => hfew pre (hpre.trans (List.prefix_append _ _))) op

/-- Settles O41: the order by induction on the operations; with cursors of 5 bits 16 unread codes are no whole lap, so a
buffer that reads as empty has none. -/
theorem fifoWithoutOverflow : Obligations.FifoWithoutOverflow := by
  unfold Obligations.FifoWithoutOverflow
  intro s ops hl hwr hrd hops hfew
  have hpre := popped_prefix_pushed hl hwr hrd hops hfew
  refine ⟨hpre, fun hw hempty => hpre.eq_of_length ?_⟩
  have ht := tracks_ringHistory hl hwr hrd hops
  have h16 := hfew ops (List.prefix_refl _)
  have h32 : 2 ^ 5 ≤ 2 ^ s.cfg.wCur := Nat.pow_le_pow_right (by decide) hw
  have hnone := Nat.eq_zero_of_dvd_of_lt (ht.empty_iff.1 hempty) (by omega)
  exact le_antisymm ht.le (Nat.sub_eq_zero_iff_le.1 hnone)

end Sys2Proof.Machine
end

section
/-! PROOFS. Who writes the timing machine, the ring and the read cursor (10_state.md R22 to R28). -/

namespace Sys2Proof.Machine

/-- The loop's next operation is one of the consumer's (44_host_consumer.md R171). -/
theorem nextOp_consumer (pos : ConsumerPos) : IsConsumerOp (nextOp pos) := by
  cases pos with
  | atPop => exact .inl rfl
  | atRdwc code => exact .inr (.inl rfl)
  | atDecode code => exact .inr (.inr ⟨_, rfl⟩)

/-- An operation that is not the consumer's comes as its word. -/
theorem TakesOperation.word_of_not_consumer {s : State} {i : Instr} {rest : List Move} (h : TakesOperation s i rest)
    (hi : ¬ IsConsumerOp i) : s.pending = .word (encode i) :: rest := by
  obtain ⟨w, hp, hd⟩ | ⟨-, -, rfl⟩ := h
  · obtain ⟨rfl, -⟩ := encode_of_decodeWord hd
    exact hp
  · exact absurd (nextOp_consumer s.consumer) hi

/-- Settles O44: the consumer's operations write none of these fields, and the others come as their words. -/
theorem onlyTickAndResetChangeTheTimingMachine : Obligations.OnlyTickAndResetChangeTheTimingMachine := by
  unfold Obligations.OnlyTickAndResetChangeTheTimingMachine
  intro s t h hchanged
  obtain heq | ⟨i, rest, u, htakes, hu, heq⟩ := step_hardware_cases h
  · simp only [hardware, State.block, Prod.mk.injEq, BlockState.mk.injEq] at heq
    obtain ⟨-, ⟨hstate, hcd, hacc, hen, hlvl, hwr, -, hring⟩, hport⟩ := heq
    exact absurd ⟨hstate, hcd, hacc, hen, hlvl, hport, hwr, hring⟩ hchanged
  · have hi : ¬ IsConsumerOp i := fun hi => by
      rw [exec_consumer_frame hi hu] at heq
      simp only [hardware, State.block, Prod.mk.injEq, BlockState.mk.injEq] at heq
      obtain ⟨-, ⟨hstate, hcd, hacc, hen, hlvl, hwr, -, hring⟩, hport⟩ := heq
      exact hchanged ⟨hstate, hcd, hacc, hen, hlvl, hport, hwr, hring⟩
    refine ⟨_, rest, htakes.word_of_not_consumer hi, ?_⟩
    obtain ⟨k, rfl, -⟩ | ⟨hconsumer, -⟩ | ⟨rfl, -⟩ := exec_next_cases hu
    · obtain rfl | rfl := BitVec.eq_zero_or_eq_one k
      · exact .inl rfl
      · exact .inr (.inl rfl)
    · exact absurd hconsumer hi
    · exact .inr (.inr rfl)

/-- POP comes as its word, or as the turn of the loop at its top. -/
theorem TakesOperation.pop_cases {s : State} {rest : List Move} (h : TakesOperation s .pop rest) :
    s.pending = .word 0x2000#16 :: rest ∨
      (s.pending = .consumerTurn :: rest ∧ s.looping = true ∧ s.consumer = .atPop) := by
  obtain ⟨w, hp, hd⟩ | ⟨hp, hloop, hnext⟩ := h
  · obtain rfl := decodeWord_eq_pop_iff.1 hd
    exact .inl hp
  · refine .inr ⟨hp, hloop, ?_⟩
    cases hc : s.consumer <;> simp [hc, nextOp] at hnext ⊢

/-- Settles O45: the operation of the step is one that moves the read cursor. -/
theorem onlyPopAndResetMoveTheReadCursor : Obligations.OnlyPopAndResetMoveTheReadCursor := by
  unfold Obligations.OnlyPopAndResetMoveTheReadCursor
  intro s t h hne
  obtain heq | ⟨i, rest, u, htakes, hu, heq⟩ := step_hardware_cases h
  · exact absurd (congrArg (·.2.1.rd) heq) hne
  · have hrd : t.rd = u.rd := congrArg (·.2.1.rd) heq
    rw [hrd] at hne ⊢
    obtain rfl | ⟨rfl, hwr, hnext⟩ := exec_rd_cases hu hne
    · exact .inl ⟨rest, htakes.word_of_not_consumer (by simp)⟩
    · refine .inr ⟨hwr, hnext, ?_⟩
      obtain hp | ⟨hp, hloop, hc⟩ := htakes.pop_cases
      · exact .inl ⟨rest, hp⟩
      · exact .inr ⟨rest, hp, hloop, hc⟩

end Sys2Proof.Machine
end

section
/-! PROOFS. The rendering consumer (44_host_consumer.md R171, R173), by its loop and written out as words. -/

namespace Sys2Proof.Machine

/-! ### The two forms of the consumer -/

/-- With the parameters `c`, the item `m` is the consumer's operation `i` at the place `pos`. -/
def Issues (c : Config) (loop : Bool) (m : Move) (pos : ConsumerPos) (i : Instr) : Prop :=
  ∀ (u : State) (rest : List Move), u.cfg = c → u.looping = loop → u.consumer = pos → u.pending = m :: rest →
    step u = consumerStep i { u with pending := rest }

/-- A turn of the running loop issues the operation of its place (log 10). -/
theorem issues_turn {c : Config} (hl : configLegal c = true) (pos : ConsumerPos) :
    Issues c true .consumerTurn pos (nextOp pos) :=
  fun _ _ hc hloop hpos hp => step_consumerTurn (hc ▸ hl) hp hloop hpos

/-- While the loop does not run, a word issues what it decodes to, wherever the consumer stands (log 27). -/
theorem issues_word {c : Config} (hl : configLegal c = true) {w : Word} {i : Instr} (hd : decodeWord c.wPc w = .ok i)
    (pos : ConsumerPos) : Issues c false (.word w) pos i :=
  fun _ _ hc hloop _ hp => step_word (hc ▸ hl) hp (hc ▸ hd) hloop

/-! ### One iteration -/

/-- The code in the slot of the read cursor is popped (44_host_consumer.md R171). -/
def codeTaken (s : State) : State :=
  { respond (popResponse (slotAt s.ring s.rd)) s with
    rd := cursorNext s.cfg.wCur s.rd
    consumer := .atRdwc (slotAt s.ring s.rd) }

/-- The calls of the screen-clear test (44_host_consumer.md R171). -/
def clearCalls (wr : Nat) : List DisplayEvent := if wr % 16 = 0 then [.clear, .moveCursor 0 0] else []

/-- The write cursor is read and tested, with the code `v` popped (44_host_consumer.md R171). -/
def cursorTested (v : Nat) (s : State) : State :=
  { respond (zext16 s.wr) s with
    display := s.display ++ clearCalls s.wr
    consumer := .atDecode v }

/-- The code `v` is decoded and its character written (44_host_consumer.md R171). -/
def characterWritten (v : Nat) (s : State) : State :=
  { respond (zext16 (lutRead s.cfg.wCh v)) s with
    display := s.display ++ [.writeChar (lutRead s.cfg.wCh v)]
    consumer := .atPop }

/-- The three together: the code `v` is shown (44_host_consumer.md R171). -/
def codeShown (v : Nat) (s : State) : State :=
  { s with
    rd := cursorNext s.cfg.wCur s.rd
    consumer := .atPop
    resp := some (zext16 (lutRead s.cfg.wCh v))
    responses := s.responses ++ [popResponse v, zext16 s.wr, zext16 (lutRead s.cfg.wCh v)]
    display := s.display ++ clearCalls s.wr ++ [.writeChar (lutRead s.cfg.wCh v)] }

theorem codeShown_eq (s : State) :
    codeShown (slotAt s.ring s.rd) s =
      characterWritten (slotAt s.ring s.rd) (cursorTested (slotAt s.ring s.rd) (codeTaken s)) := by
  simp [codeShown, characterWritten, cursorTested, codeTaken, respond]

section
variable {s : State} {loop : Bool} {m : Move} {v : Nat} {rest : List Move} (hloop : s.looping = loop)
  (hp : s.pending = m :: rest)
include hloop hp

/-- The POP of a buffer that does not read as empty. -/
theorem step_codeTaken (hl : configLegal s.cfg = true) (hpop : Issues s.cfg loop m s.consumer .pop)
    (hne : s.rd ≠ s.wr) (hv : slotAt s.ring s.rd < 2 ^ s.cfg.wPc) :
    step s = .next { codeTaken s with pending := rest } := by
  obtain ⟨⟨-, -, hw, -⟩, -⟩ := (configLegal_iff _).1 hl
  exact (hpop s rest rfl hloop rfl hp).trans (consumerStep_pop_some (s := { s with pending := rest }) hw hne rfl hv)

/-- The RDWC after it. -/
theorem step_cursorTested (hrdwc : Issues s.cfg loop m (.atRdwc v) .rdwc) (hc : s.consumer = .atRdwc v) :
    step s = .next { cursorTested v s with pending := rest } :=
  (hrdwc s rest rfl hloop hc hp).trans (consumerStep_rdwc (s := { s with pending := rest }) hc)

/-- The DECODE after that. -/
theorem step_characterWritten (hdecode : Issues s.cfg loop m (.atDecode v) (.decode (BitVec.ofNat 12 v)))
    (hc : s.consumer = .atDecode v) (hv : v < 2 ^ 12) : step s = .next { characterWritten v s with pending := rest } :=
  (hdecode s rest rfl hloop hc hp).trans (consumerStep_decode (s := { s with pending := rest }) hc hv)

end

/-- The iteration's other two steps, once the code `v` is popped. -/
theorem steps_characterWritten {s : State} {loop : Bool} {m m' : Move} {v : Nat} {rest : List Move}
    (hloop : s.looping = loop) (hrdwc : Issues s.cfg loop m (.atRdwc v) .rdwc)
    (hdecode : Issues s.cfg loop m' (.atDecode v) (.decode (BitVec.ofNat 12 v))) (hc : s.consumer = .atRdwc v)
    (hp : s.pending = m :: m' :: rest) (hv : v < 2 ^ 12) :
    steps 2 s = .next { characterWritten v (cursorTested v s) with pending := rest } := by
  have hwritten := step_characterWritten (s := { cursorTested v s with pending := m' :: rest }) hloop rfl hdecode rfl hv
  rw [steps_succ_of_next (step_cursorTested hloop hp hrdwc hc), steps_succ_of_next hwritten, steps_zero]
  rfl

/-- A whole iteration. -/
theorem steps_iteration {s : State} {loop : Bool} {m m' m'' : Move} {v : Nat} {rest : List Move}
    (hl : configLegal s.cfg = true) (hloop : s.looping = loop) (hpop : Issues s.cfg loop m s.consumer .pop)
    (hrdwc : Issues s.cfg loop m' (.atRdwc v) .rdwc)
    (hdecode : Issues s.cfg loop m'' (.atDecode v) (.decode (BitVec.ofNat 12 v)))
    (hp : s.pending = m :: m' :: m'' :: rest) (hne : s.rd ≠ s.wr) (hv : slotAt s.ring s.rd = v)
    (hfits : v < 2 ^ s.cfg.wPc) :
    steps 3 s = .next { codeShown v s with pending := rest } := by
  subst hv
  obtain ⟨⟨-, -, hw, -⟩, -⟩ := (configLegal_iff _).1 hl
  have hv12 := hfits.trans_le (Nat.pow_le_pow_right (by decide) hw)
  rw [steps_succ_of_next (step_codeTaken hloop hp hl hpop hne hfits), codeShown_eq]
  exact steps_characterWritten (s := { codeTaken s with pending := m' :: m'' :: rest }) hloop hrdwc hdecode rfl rfl hv12

/-- A code that is in a slot fits it. -/
theorem Inv.slotAt_lt {s : State} (hi : Inv s) (k : Nat) : slotAt s.ring k < 2 ^ s.cfg.wPc := by
  obtain ⟨-, -, -, -, hring⟩ := hi.widths
  exact hring (slotOf k)

/-! ### The running loop -/

/-- An iteration of the loop. -/
theorem steps_turns {s : State} {v : Nat} {rest : List Move} (hl : configLegal s.cfg = true) (hloop : s.looping = true)
    (hc : s.consumer = .atPop) (hp : s.pending = .consumerTurn :: .consumerTurn :: .consumerTurn :: rest)
    (hne : s.rd ≠ s.wr) (hv : slotAt s.ring s.rd = v) (hfits : v < 2 ^ s.cfg.wPc) :
    steps 3 s = .next { codeShown v s with pending := rest } := by
  have hpop : Issues s.cfg true .consumerTurn s.consumer .pop := hc ▸ issues_turn hl .atPop
  exact steps_iteration hl hloop hpop (issues_turn hl (.atRdwc v)) (issues_turn hl (.atDecode v)) hp hne hv hfits

/-- Settles O46: the turn on an empty buffer, and the three turns of an iteration. -/
theorem consumerIterationShowsOneCharacter : Obligations.ConsumerIterationShowsOneCharacter := by
  unfold Obligations.ConsumerIterationShowsOneCharacter
  intro s rest hi hloop hc
  refine ⟨fun hp hempty => ?_, fun hp hne => ?_⟩
  · rw [step_consumerTurn hi.legal hp hloop hc]
    refine (consumerStep_pop_none (s := { s with pending := rest }) hempty).trans ?_
    simp [answered, respond, hc]
  · rw [steps_turns hi.legal hloop hc hp hne rfl (hi.slotAt_lt s.rd)]
    simp [codeShown, clearCalls, popResponse, cursorNext, hc]

/-- The silent sample that pushes, as a word while the loop runs (41_timing_fsm.md R108). -/
theorem exists_step_expiry_word {s : State} {rest : List Move} (hl : configLegal s.cfg = true) (hloop : s.looping = true)
    (hp : s.pending = .word 0x1001#16 :: rest) (hs : s.state = .charGap) (hcd : s.cd = 1)
    (hf : s.cfg.gapForm = .separated) :
    ∃ t, step s = .next t ∧ t.cfg = s.cfg ∧ t.looping = s.looping ∧ t.consumer = s.consumer ∧ t.pending = rest ∧
      t.display = s.display ∧ t.wr = (s.wr + 1) % 2 ^ s.cfg.wCur := by
  obtain ⟨⟨hw, -⟩, -⟩ := (configLegal_iff _).1 hl
  rw [step_word_looping hl hp (decodeWord_eq_tick_one_iff.2 rfl) hloop ⟨nofun, nofun⟩]
  exact ⟨_, exec_expiry_charGap hs hcd (show 1 ≤ s.cfg.wCd by omega) hf, rfl, rfl, rfl, rfl, rfl, rfl⟩

/-- Settles O47: the loop's POP, the TICK's push, and the two turns that see the later cursor. -/
theorem screenClearTestSeesTheLaterCursor : Obligations.ScreenClearTestSeesTheLaterCursor := by
  unfold Obligations.ScreenClearTestSeesTheLaterCursor
  intro s rest hi hloop hc hne hs hcd hf hp
  obtain ⟨⟨-, -, hw, -⟩, -⟩ := (configLegal_iff _).1 hi.legal
  have hv := hi.slotAt_lt s.rd
  have hv12 := hv.trans_le (Nat.pow_le_pow_right (by decide) hw)
  have hpop : Issues s.cfg true .consumerTurn s.consumer .pop := hc ▸ issues_turn hi.legal .atPop
  have htaken := step_codeTaken hloop hp hi.legal hpop hne hv
  obtain ⟨u, hpushed, hcfg, huloop, huc, hup, hdisplay, hwr⟩ := exists_step_expiry_word
    (s := { codeTaken s with pending := .word 0x1001#16 :: .consumerTurn :: .consumerTurn :: rest })
    hi.legal hloop rfl hs hcd hf
  have hlu : configLegal u.cfg = true := hcfg ▸ hi.legal
  have hshown := steps_characterWritten (huloop.trans hloop) (issues_turn hlu (.atRdwc (slotAt s.ring s.rd)))
    (issues_turn hlu (.atDecode (slotAt s.ring s.rd))) huc hup hv12
  rw [steps_succ_of_next htaken, steps_succ_of_next hpushed]
  refine ⟨_, hshown, hwr, ?_⟩
  simp only [characterWritten, cursorTested, respond, clearCalls, hdisplay, hwr, hcfg]
  rfl

/-! ### Each code shown before the next -/

/-- The display calls of the code `v` at the count `n` (44_host_consumer.md R173). -/
abbrev showCalls (c : Config) (n v : Nat) : List DisplayEvent :=
  (if n % 16 = 0 then [.clear, .moveCursor 0 0] else []) ++ [.writeChar (lutRead c.wCh v)]

/-- Both cursors stand at the count `n`, and the loop at its top: each of `n` codes has been pushed and shown. -/
structure Shown (c : Config) (n : Nat) (s : State) : Prop where
  cfg : s.cfg = c
  wr : s.wr = n % 2 ^ c.wCur
  rd : s.rd = n % 2 ^ c.wCur
  loop : s.looping = true
  consumer : s.consumer = .atPop

/-- A cursor's next value is another one. -/
theorem mod_ne_succ_mod {n M : Nat} (hM : 2 ≤ M) : n % M ≠ (n + 1) % M := fun h => by
  have hdvd := (Nat.modEq_iff_dvd' (Nat.le_succ n)).1 h
  rw [Nat.succ_sub (le_refl n), Nat.sub_self] at hdvd
  exact absurd (Nat.le_of_dvd Nat.one_pos hdvd) (by omega)

/-- One more code is pushed and shown. -/
theorem Shown.exists_showCode {c : Config} {n v : Nat} {s : State} (h : Shown c n s) (hl : configLegal c = true)
    (hv : v < 2 ^ c.wPc) :
    ∃ t, showCode v s = .next t ∧ Shown c (n + 1) t ∧ t.display = s.display ++ showCalls c (n + 1) v := by
  obtain ⟨rfl, hwr, hrd, hloop, hc⟩ := h
  obtain ⟨⟨-, -, -, hw⟩, -⟩ := (configLegal_iff _).1 hl
  have h16 : 2 ^ 4 ≤ 2 ^ s.cfg.wCur := Nat.pow_le_pow_right (by decide) hw
  have hnext : cursorNext s.cfg.wCur (n % 2 ^ s.cfg.wCur) = (n + 1) % 2 ^ s.cfg.wCur := Nat.mod_add_mod _ _ _
  have hwr' : cursorNext s.cfg.wCur s.wr = (n + 1) % 2 ^ s.cfg.wCur := hwr ▸ hnext
  have hrd' : cursorNext s.cfg.wCur s.rd = (n + 1) % 2 ^ s.cfg.wCur := hrd ▸ hnext
  have hne : s.rd ≠ cursorNext s.cfg.wCur s.wr := by
    rw [hwr', hrd]
    exact mod_ne_succ_mod (by omega)
  have hslot : slotAt (push v s).ring s.rd = v := by
    rw [slotAt_push, hwr, hrd, if_pos rfl, Nat.mod_eq_of_lt hv]
  have hrun := steps_turns (s := { push v s with pending := [.consumerTurn, .consumerTurn, .consumerTurn] }) hl hloop hc
    rfl hne hslot hv
  refine ⟨_, hrun, ⟨rfl, hwr', hrd', hloop, rfl⟩, ?_⟩
  have hcalls : clearCalls (cursorNext s.cfg.wCur s.wr) =
      if (n + 1) % 16 = 0 then [.clear, .moveCursor 0 0] else [] := by
    rw [clearCalls, hwr', mod_two_pow_mod_sixteen hw]
  rw [showCalls, ← hcalls, ← List.append_assoc]
  rfl

/-- The codes that follow are shown in their order, with the clear before every sixteenth since reset. -/
theorem Shown.exists_showCodes {c : Config} {n : Nat} {codes : List Nat} {s : State} (h : Shown c n s)
    (hl : configLegal c = true) (hcodes : ∀ v ∈ codes, v < 2 ^ c.wPc) :
    ∃ t, showCodes codes s = .next t ∧ Shown c (n + codes.length) t ∧
      t.display = s.display ++ (codes.zipIdx n).flatMap fun p => showCalls c (p.2 + 1) p.1 := by
  induction codes generalizing n s with
  | nil => exact ⟨s, rfl, h, by simp⟩
  | cons v vs ih =>
    obtain ⟨hv, hvs⟩ := List.forall_mem_cons.1 hcodes
    obtain ⟨u, hu, hshown, hdisplay⟩ := h.exists_showCode hl hv
    obtain ⟨t, ht, hshown', hdisplay'⟩ := ih hshown hvs
    refine ⟨t, ?_, ?_, ?_⟩
    · rw [showCodes, hu, runOn_next, ht]
    · rwa [List.length_cons, Nat.add_comm vs.length, ← Nat.add_assoc]
    · rw [hdisplay', hdisplay, List.zipIdx_cons, List.flatMap_cons, List.append_assoc]

/-- Settles O48: from reset cursors, with the count at 0. -/
theorem displayClearsEverySixteenthCode : Obligations.DisplayClearsEverySixteenthCode := by
  unfold Obligations.DisplayClearsEverySixteenthCode
  intro s codes hl hwr hrd hloop hc hcodes
  have hstart : Shown s.cfg 0 s := ⟨rfl, by simp [hwr], by simp [hrd], hloop, hc⟩
  obtain ⟨t, ht, hshown, hdisplay⟩ := hstart.exists_showCodes hl hcodes
  exact ⟨t, ht, hshown.rd.trans hshown.wr.symm, hdisplay⟩

end Sys2Proof.Machine
end

section
/-! PROOFS. The consumer's steps written out as words (30_encoding.md R85; log 27), and a stimulus program's run to its end
(44_host_consumer.md R175). -/

namespace Sys2Proof.Machine

/-! ### What a word does to the host's side -/

/-- No operation by itself touches what is the host's: the display log, the consumer, and the total order. -/
theorem exec_host {i : Instr} {s t : State} (h : exec i s = .next t) :
    t.display = s.display ∧ t.consumer = s.consumer ∧ t.looping = s.looping ∧ t.pending = s.pending := by
  obtain ⟨k, -, rfl⟩ | ⟨-, ht⟩ | ⟨-, hreset⟩ := exec_next_cases h
  · rw [tickTransition_frame]
    exact ⟨rfl, rfl, rfl, rfl⟩
  · rw [ht]
    exact ⟨rfl, rfl, rfl, rfl⟩
  · cases hreset
    exact ⟨rfl, rfl, rfl, rfl⟩

/-- POP makes no display call, whatever it answers (44_host_consumer.md R171). -/
theorem renderStep_pop_display (s : State) : (renderStep .pop s).display = s.display := by
  simp only [renderStep, afterPop]
  split <;> rfl

/-- A step at a word: refused, or the operation, with the consumer's display calls while the loop does not run. -/
theorem step_word_next_cases {s t : State} {w : Word} {rest : List Move} (hp : s.pending = .word w :: rest)
    (h : step s = .next t) :
    (∃ r, decodeWord s.cfg.wPc w = .error r ∧ t = refuseWord { s with pending := rest }) ∨
      ∃ i u, decodeWord s.cfg.wPc w = .ok i ∧ exec i { s with pending := rest } = .next u ∧
        ((s.looping = true ∧ t = u) ∨ (s.looping = false ∧ t = renderStep i u)) := by
  obtain ⟨-, ⟨hnil, -⟩ | ⟨m, rest', hp', htake⟩⟩ := step_next_cases h
  · exact absurd (hp.symm.trans hnil) nofun
  · rw [hp] at hp'
    cases hp'
    exact takeWord_next_cases htake

/-- A step makes no display call and leaves the consumer's place (log 27). -/
def NoDisplayCall (s t : State) : Prop := t.display = s.display ∧ t.consumer = s.consumer

/-- A refused word makes none, and the others make those of their operation's step of the consumer, while the loop does not
run. -/
theorem step_word_noDisplayCall {s t : State} {w : Word} {rest : List Move} (hp : s.pending = .word w :: rest)
    (h : step s = .next t) (hrender : s.looping = false → ∀ i u, decodeWord s.cfg.wPc w = .ok i →
      u.consumer = s.consumer → renderStep i u = u) : NoDisplayCall s t := by
  obtain ⟨r, -, rfl⟩ | ⟨i, u, hd, hu, ht⟩ := step_word_next_cases hp h
  · exact ⟨rfl, rfl⟩
  · obtain ⟨hdisplay, hc, -⟩ := exec_host hu
    obtain ⟨-, rfl⟩ | ⟨hloop, rfl⟩ := ht
    · exact ⟨hdisplay, hc⟩
    · rw [hrender hloop i u hd hc]
      exact ⟨hdisplay, hc⟩

/-- Settles O52: in each of the first three cases the operation is no step of the consumer; in the last one it is none
with a display call. -/
theorem wordsOutOfTurnMakeNoDisplayCall : Obligations.WordsOutOfTurnMakeNoDisplayCall := by
  unfold Obligations.WordsOutOfTurnMakeNoDisplayCall
  intro s t w rest hp h
  refine ⟨fun hloop => ?_, fun hd hturn => ?_, fun c hd hturn => ?_, fun hrdwc hdecode => ?_⟩
  · exact step_word_noDisplayCall hp h fun hoff => absurd (hloop.symm.trans hoff) nofun
  · refine step_word_noDisplayCall hp h fun _ i u hi hc => ?_
    cases hd.symm.trans hi
    exact renderStep_rdwc_other fun code hat => hturn code (hc.symm.trans hat)
  · refine step_word_noDisplayCall hp h fun _ i u hi hc => ?_
    cases hd.symm.trans hi
    exact renderStep_decode_other fun code hat => hturn code (hc.symm.trans hat)
  · obtain ⟨r, -, rfl⟩ | ⟨i, u, hd, hu, ht⟩ := step_word_next_cases hp h
    · rfl
    · obtain ⟨hdisplay, -⟩ := exec_host hu
      obtain ⟨-, rfl⟩ | ⟨-, rfl⟩ := ht
      · exact hdisplay
      · cases i with
        | tick k => exact hdisplay
        | pop => exact (renderStep_pop_display u).trans hdisplay
        | rdwc => exact absurd hd hrdwc
        | decode c => exact absurd hd (hdecode c)
        | reset => exact hdisplay

/-! ### Words of the consumer -/

/-- The word of DECODE for a code that fits (30_encoding.md R78). -/
theorem decodeWord_of_code {wPc code : Nat} (hw : wPc ≤ 12) (hc : code < 2 ^ wPc) :
    decodeWord wPc (BitVec.ofNat 16 (0x4000 + code)) = .ok (.decode (BitVec.ofNat 12 code)) := by
  have h12 : code < 2 ^ 12 := hc.trans_le (Nat.pow_le_pow_right (by decide) hw)
  rw [decodeWord_eq_decode_iff, BitVec.toNat_ofNat, BitVec.toNat_ofNat, Nat.mod_eq_of_lt h12,
    Nat.mod_eq_of_lt (by omega)]
  exact ⟨rfl, hc⟩

/-- Settles O51: the POP on an empty buffer, the three words of an iteration, and the words that move the place. -/
theorem writtenOutIterationShowsOneCharacter : Obligations.WrittenOutIterationShowsOneCharacter := by
  unfold Obligations.WrittenOutIterationShowsOneCharacter
  intro s rest hi hloop
  refine ⟨fun hp hempty => ?_, fun hp hne => ?_, fun w t hp h hmoved => ?_⟩
  · rw [step_word hi.legal hp (decodeWord_eq_pop_iff.2 rfl) hloop]
    exact consumerStep_pop_none hempty
  · obtain ⟨⟨-, -, hw, -⟩, -⟩ := (configLegal_iff _).1 hi.legal
    have hv := hi.slotAt_lt s.rd
    rw [steps_iteration hi.legal hloop (issues_word hi.legal (decodeWord_eq_pop_iff.2 rfl) _)
      (issues_word hi.legal (decodeWord_eq_rdwc_iff.2 rfl) _)
      (issues_word hi.legal (decodeWord_of_code hw hv) _) hp hne rfl hv]
    simp [codeShown, clearCalls, popResponse, cursorNext]
  · by_contra hother
    obtain ⟨hpop, hrdwc, hdecode⟩ := by simpa only [not_or, not_exists] using hother
    obtain ⟨-, hkept⟩ := step_word_noDisplayCall hp h fun _ i u hd _ => by
      cases i with
      | tick k => rfl
      | pop => exact absurd hd hpop
      | rdwc => exact absurd hd hrdwc
      | decode c => exact absurd hd (hdecode c)
      | reset => rfl
    exact hmoved hkept

/-- The consumer's operations do not depend on whether its loop runs. -/
theorem exec_consumer_setLooping {i : Instr} {s u : State} (hi : IsConsumerOp i)
    (h : exec i s = .next u) (b : Bool) : exec i { s with looping := b } = .next { u with looping := b } := by
  obtain rfl | rfl | ⟨c, rfl⟩ := hi
  · by_cases he : s.rd = s.wr
    · rw [exec_pop_empty he] at h
      cases h
      exact exec_pop_empty he
    · rw [exec_pop_some he] at h
      cases h
      exact exec_pop_some he
  · cases h
    rfl
  · cases h
    rfl

/-- Settles O53: the word of the place decodes to the loop's next operation, which does the same with the loop stopped. -/
theorem consumerTurnIsTheWrittenOutWord : Obligations.ConsumerTurnIsTheWrittenOutWord := by
  unfold Obligations.ConsumerTurnIsTheWrittenOutWord
  intro s t rest hloop hp hfits h w hw
  obtain ⟨hl, -⟩ := step_next_cases h
  rw [step_consumerTurn hl hp hloop rfl] at h
  obtain ⟨u, hu, rfl⟩ := consumerStep_next_cases h
  have hd : decodeWord s.cfg.wPc w = .ok (nextOp s.consumer) := by
    obtain ⟨⟨-, -, hwPc, -⟩, -⟩ := (configLegal_iff _).1 hl
    subst hw
    cases hc : s.consumer with
    | atPop => exact decodeWord_eq_pop_iff.2 rfl
    | atRdwc code => exact decodeWord_eq_rdwc_iff.2 rfl
    | atDecode code => exact decodeWord_of_code hwPc (hfits code hc)
  have hoff := exec_consumer_setLooping (nextOp_consumer s.consumer) hu false
  rw [step_word (s := { s with looping := false, pending := .word w :: rest }) hl rfl hd rfl, ← renderStep_setLooping]
  exact consumerStep_of_next hoff

/-! ### A program's run -/

/-- The words of TICK, as a program's run counts them. -/
abbrev isTickWord (w : Word) : Bool := w == 0x1000#16 || w == 0x1001#16

/-- The words that are answered. -/
abbrev isAnsweredWord (wPc : Nat) (w : Word) : Bool :=
  w == 0x2000#16 || w == 0x3000#16 || (decide (0x4000 ≤ w.toNat) && decide (w.toNat < 0x4000 + 2 ^ wPc))

theorem isTickWord_iff {wPc : Nat} {w : Word} : isTickWord w = true ↔ ∃ k, decodeWord wPc w = .ok (.tick k) := by
  rw [isTickWord, Bool.or_eq_true, beq_iff_eq, beq_iff_eq, ← decodeWord_eq_tick_zero_iff (wPc := wPc),
    ← decodeWord_eq_tick_one_iff (wPc := wPc)]
  constructor
  · rintro (h | h) <;> exact ⟨_, h⟩
  · rintro ⟨k, h⟩
    obtain rfl | rfl := BitVec.eq_zero_or_eq_one k
    · exact .inl h
    · exact .inr h

theorem isAnsweredWord_iff {wPc : Nat} (hw : wPc ≤ 12) {w : Word} :
    isAnsweredWord wPc w = true ↔
      decodeWord wPc w = .ok .pop ∨ decodeWord wPc w = .ok .rdwc ∨ ∃ c, decodeWord wPc w = .ok (.decode c) := by
  have h12 : 2 ^ wPc ≤ 2 ^ 12 := Nat.pow_le_pow_right (by decide) hw
  rw [exists_decodeWord_eq_decode_iff, decodeWord_eq_pop_iff, decodeWord_eq_rdwc_iff]
  simp only [isAnsweredWord, Bool.or_eq_true, Bool.and_eq_true, beq_iff_eq, decide_eq_true_eq, or_assoc]
  refine or_congr Iff.rfl (or_congr Iff.rfl ?_)
  omega

/-- TICK logs the tone port (44_host_consumer.md R175). -/
def ticks : Instr → Bool
  | .tick _ => true
  | .pop => false
  | .rdwc => false
  | .decode _ => false
  | .reset => false

/-- POP, RDWC and DECODE are answered (30_encoding.md R70). -/
def answers : Instr → Bool
  | .tick _ => false
  | .pop => true
  | .rdwc => true
  | .decode _ => true
  | .reset => false

theorem isTickWord_of_ok {wPc : Nat} {w : Word} {i : Instr} (hd : decodeWord wPc w = .ok i) : isTickWord w = ticks i := by
  rw [Bool.eq_iff_iff, isTickWord_iff (wPc := wPc), hd]
  cases i <;> simp [ticks]

theorem isAnsweredWord_of_ok {wPc : Nat} (hw : wPc ≤ 12) {w : Word} {i : Instr} (hd : decodeWord wPc w = .ok i) :
    isAnsweredWord wPc w = answers i := by
  rw [Bool.eq_iff_iff, isAnsweredWord_iff hw, hd]
  cases i <;> simp [answers]

theorem isTickWord_of_error {wPc : Nat} {w : Word} {r : Reject} (hd : decodeWord wPc w = .error r) :
    isTickWord w = false := by
  rw [← Bool.not_eq_true, isTickWord_iff (wPc := wPc), hd]
  simp

theorem isAnsweredWord_of_error {wPc : Nat} (hw : wPc ≤ 12) {w : Word} {r : Reject} (hd : decodeWord wPc w = .error r) :
    isAnsweredWord wPc w = false := by
  rw [← Bool.not_eq_true, isAnsweredWord_iff hw, hd]
  simp

/-- What an operation adds to the two sequences; RESET adds nothing (log 15, log 16). -/
theorem exec_observed {i : Instr} {s t : State} (h : exec i s = .next t) :
    t.tones.length = s.tones.length + (if ticks i then 1 else 0) ∧
      t.responses.length = s.responses.length + (if answers i then 1 else 0) := by
  cases i with
  | tick k =>
    cases h
    rw [tickTransition_frame]
    simp [ticks, answers]
  | pop =>
    by_cases he : s.rd = s.wr
    · rw [exec_pop_empty he] at h
      cases h
      simp [ticks, answers]
    · rw [exec_pop_some he] at h
      cases h
      simp [ticks, answers]
  | rdwc => cases h; simp [ticks, answers]
  | decode c => cases h; simp [ticks, answers]
  | reset => cases h; exact ⟨rfl, rfl⟩

/-- What a word's step adds to the two sequences; a refused one adds nothing (60_exceptions.md R201). -/
theorem step_word_observed {s t : State} {w : Word} {rest : List Move} (hp : s.pending = .word w :: rest)
    (h : step s = .next t) :
    t.tones.length = s.tones.length + (if isTickWord w then 1 else 0) ∧
      t.responses.length = s.responses.length + (if isAnsweredWord s.cfg.wPc w then 1 else 0) := by
  obtain ⟨hl, -⟩ := step_next_cases h
  obtain ⟨⟨-, -, hw, -⟩, -⟩ := (configLegal_iff _).1 hl
  obtain ⟨r, hd, rfl⟩ | ⟨i, u, hd, hu, ht⟩ := step_word_next_cases hp h
  · rw [isTickWord_of_error hd, isAnsweredWord_of_error hw hd]
    exact ⟨rfl, rfl⟩
  · have hobserved := exec_observed hu
    rw [isTickWord_of_ok hd, isAnsweredWord_of_ok hw hd]
    obtain ⟨-, rfl⟩ | ⟨-, rfl⟩ := ht
    · exact hobserved
    · rw [renderStep_tones, renderStep_responses]
      exact hobserved

/-- A word's step takes the word off and leaves the loop as it is. -/
theorem step_word_rest {s t : State} {w : Word} {rest : List Move} (hp : s.pending = .word w :: rest)
    (h : step s = .next t) : t.pending = rest ∧ t.looping = s.looping := by
  obtain ⟨r, hd, rfl⟩ | ⟨i, u, hd, hu, ht⟩ := step_word_next_cases hp h
  · exact ⟨rfl, rfl⟩
  · obtain ⟨-, -, hloop, hrest⟩ := exec_host hu
    obtain ⟨-, rfl⟩ | ⟨-, rfl⟩ := ht
    · exact ⟨hrest, hloop⟩
    · rw [renderStep_pending, renderStep_looping]
      exact ⟨hrest, hloop⟩

/-- A word's step sets the mark exactly where the word is refused (10_state.md R34). -/
theorem step_word_refused_iff {s t : State} {w : Word} {rest : List Move} (hp : s.pending = .word w :: rest)
    (h : step s = .next t) :
    t.refused = true ↔ s.refused = true ∨ ∃ r, decodeWord s.cfg.wPc w = .error r := by
  rw [step_refused_iff h]
  simp [NextWordRejected, hp]

/-- While the loop does not run, the step of a word completes. -/
theorem step_word_completes {s : State} {w : Word} {rest : List Move} (hl : configLegal s.cfg = true)
    (hloop : s.looping = false) (hp : s.pending = .word w :: rest) : ∃ t, step s = .next t := by
  obtain hnext | ⟨-, hon, -⟩ | ⟨-, -, rest', hturn⟩ := step_outcome hl
  · exact hnext
  · exact absurd (hloop.symm.trans hon) nofun
  · exact absurd (hp.symm.trans hturn) nofun

/-- Settles O54, by induction on the words: each takes one step, which leaves the rest of the program loaded. -/
theorem programRunsToItsEnd : Obligations.ProgramRunsToItsEnd := by
  unfold Obligations.ProgramRunsToItsEnd
  intro words s hl hloop
  induction words generalizing s with
  | nil => exact ⟨_, rfl, rfl, hloop, rfl, by simp [loadProgram], rfl, rfl⟩
  | cons w ws ih =>
    have hp : (loadProgram (w :: ws) s).pending = .word w :: ws.map .word := rfl
    obtain ⟨u, hu⟩ := step_word_completes (s := loadProgram (w :: ws) s) hl hloop hp
    obtain ⟨hrest, huloop⟩ := step_word_rest hp hu
    obtain ⟨htones, hresponses⟩ := step_word_observed hp hu
    have hrefused := step_word_refused_iff hp hu
    have hcfg : u.cfg = s.cfg := (step_cfg hu).trans rfl
    obtain ⟨t, ht, hpending, htloop, htcfg, htrefused, httones, htresponses⟩ :=
      ih u (hcfg ▸ hl) (huloop.trans hloop)
    have hloaded : loadProgram ws u = u := by rw [loadProgram, ← hrest]
    rw [endOfRun, hloaded] at ht
    rw [hcfg] at htcfg htrefused htresponses
    refine ⟨t, (steps_succ_of_next hu).trans ht, hpending, htloop, htcfg, ?_, ?_, ?_⟩
    · rw [htrefused, hrefused, List.exists_mem_cons_iff, or_assoc]
      rfl
    · rw [httones, htones, List.countP_cons, Nat.add_assoc, Nat.add_comm (ite _ _ _)]
      rfl
    · rw [htresponses, hresponses, List.countP_cons, Nat.add_assoc, Nat.add_comm (ite _ _ _)]
      rfl

end Sys2Proof.Machine
end
